-- ==== Sys2Proof/Word.lean ====
section
/-!
DEFINITION. The plain types of the DF416 model: bytes, two-byte fields, station, lock and ticket numbers, sets of them, and
one update of a fixed-length table.
-/

namespace Sys2Proof

/-- A byte at the host port or on the peer bus (chapter 12). -/
abbrev Byte := BitVec 8

/-- A two-byte field: a sequence, a cut sequence, a counter, the check word (chapter 12). -/
abbrev Half := BitVec 16

/-- A station ID, 0 to 15 (R124). -/
abbrev StationId := Fin 16

/-- A lock number, 0 to 63 (R1). -/
abbrev LockId := Fin 64

/-- A ticket number, 0 to 15 (R164). -/
abbrev TicketId := Fin 16

/-- A set of station IDs: no order, no repeats. -/
abbrev IdSet := Vector Bool 16

/-- A set of lock numbers: no order, no repeats. -/
abbrev LockSet := Vector Bool 64

/-- The sixteen station IDs in ascending order. -/
abbrev allIds : List StationId := List.finRange 16

/-- The sixty-four lock numbers in ascending order. -/
abbrev allLocks : List LockId := List.finRange 64

/-- The table `v` with entry `i` replaced by `x`. -/
def put {α : Type} {n : Nat} (v : Vector α n) (i : Fin n) (x : α) : Vector α n :=
  v.set i.val x i.isLt

end Sys2Proof
end

