-- ==== Sys2Proof/Syntax.lean ====
section
/-!
DEFINITION. The commands: one constructor per row of spec/opcode_table.json, with the operands the rows' rules name.
-/

namespace Sys2Proof

/-- What a slot of a request window reads (R52). -/
inductive RequestSlot
  | empty
  | ordinary
  | expedited
  deriving DecidableEq, Repr

/-- What a slot of a verdict window reads (R52). -/
inductive VerdictSlot
  | empty
  | veto
  | stale
  | busy
  | taken
  deriving DecidableEq, Repr

/-- The sixteen slots of a request window as this station read them from the line; slot n belongs to ID n (R52). -/
abbrev RequestSlots := Vector RequestSlot 16

/-- The sixteen slots of a verdict window as this station read them from the line (R52). -/
abbrev VerdictSlots := Vector VerdictSlot 16

/-- The five straps: ID3 to ID0 as a station ID, and RATE (low 250 kbit/s, high 1 Mbit/s) (R124, section 12.4). -/
structure Straps where
  id   : StationId
  rate : Bool
  deriving DecidableEq, Repr

/-- A command: something that happens to the station, one constructor per row of the table of operations and events.
A host command row is the TAKING of the command, at the arrival of its last byte (R160); its operands are the raw argument
bytes. -/
inductive Instr
  /-- POWER_ON_RESET (R137): RST is released with these levels at the strap pins. -/
  | powerOnReset (pins : Straps)
  /-- SELECT_FALLS (R160). -/
  | selectFalls
  /-- SELECT_RISES (R161). -/
  | selectRises
  /-- BAD_COMMAND (R161): a command byte that names no command. -/
  | badCommand (code : Byte)
  /-- STATUS (R170). -/
  | status
  /-- START (R126), with its argument byte. -/
  | start (arg : Byte)
  /-- CLAIM (R168): lock, claim flags, lease. -/
  | claim (lock flags lease : Byte)
  /-- YIELD (R168): lock. -/
  | yield (lock : Byte)
  /-- RECALL (R169): lock, target ticket. -/
  | recall (lock target : Byte)
  /-- NOTE (R149): destination, topic, length, payload. -/
  | note (dest topic length : Byte) (payload : List Byte)
  /-- NEXT (R174). -/
  | next
  /-- TAKE_NOTE (R158). -/
  | takeNote
  /-- LOOK_LOCK (R170): lock. -/
  | lookLock (lock : Byte)
  /-- LOOK_ROSTER (R170). -/
  | lookRoster
  /-- LEAVE (R171). -/
  | leave
  /-- STOP (R176). -/
  | stop
  /-- RESTART (R180). -/
  | restart
  /-- SOFT_RESET (R138). -/
  | softReset
  /-- FAULTS (R186). -/
  | faults
  /-- CLEAR_FAULTS (R186). -/
  | clearFaults
  /-- ROUND_START (R53): this station starts a round from an idle bus, its pointer known. -/
  | roundStart
  /-- RESYNCHRONIZING_START (R59): this station starts a round from an idle bus, its pointer unknown. -/
  | resynchronizingStart
  /-- REQUEST_WINDOW_OPEN (R72). -/
  | requestWindowOpen
  /-- REQUEST_WINDOW_CLOSE (R56): the window closes with these slots, at least one holding a request mark. -/
  | requestWindowClose (slots : RequestSlots)
  /-- EMPTY_REQUEST_WINDOW (R53): the window closes with no request mark. -/
  | emptyRequestWindow
  /-- FRAME_RECEIVED (R35): the frame part ends; these bytes stood on the line (none: no frame). -/
  | frameReceived (line : List Byte)
  /-- VERDICT_WINDOW_CLOSE (R61): the verdict window closes with these slots. -/
  | verdictWindowClose (slots : VerdictSlots)
  /-- READBACK_MISMATCH_LIMIT (R63): the close, with these slots, of the window in which the count reached 4. -/
  | readbackMismatchLimit (slots : VerdictSlots)
  /-- SOLO_VETO_LIMIT (R66): the close, with these slots, at which the solo-veto count reaches 4. -/
  | soloVetoLimit (slots : VerdictSlots)
  /-- ATTEMPT_LIMIT_DROP (R68): the close, with these slots, at which the host queue's head reaches 8 attempts. -/
  | attemptLimitDrop (slots : VerdictSlots)
  /-- COPY_FRAME_DROP (R69): the close, with these slots, at which the copy frame reaches 8 attempts. -/
  | copyFrameDrop (slots : VerdictSlots)
  /-- BUSY_LIMIT_DROP (R70): the close, with these slots, at which the NOTE reaches 16 BUSY answers. -/
  | busyLimitDrop (slots : VerdictSlots)
  /-- BUSY_WAIT_EXPIRY (R156). -/
  | busyWaitExpiry
  /-- OWN_BEACON_TIMER_EXPIRY (R80). -/
  | ownBeaconTimerExpiry
  /-- SILENCE_TIMER_EXPIRY (R84) for one peer. -/
  | silenceTimerExpiry (peer : StationId)
  /-- QUIET_WINDOW_EXPIRY (R99). -/
  | quietWindowExpiry
  /-- BACKOFF_TIMER_EXPIRY (R98). -/
  | backoffTimerExpiry
  /-- JOIN_TIMER_EXPIRY (R112). -/
  | joinTimerExpiry
  /-- STALL_TIMER_EXPIRY (R114). -/
  | stallTimerExpiry
  /-- REJOIN_TIMER_EXPIRY (R133). -/
  | rejoinTimerExpiry
  /-- LEASE_COUNT_OUT (R142): the RUNNING lease of this lock counts out. -/
  | leaseCountOut (lock : LockId)
  /-- BYTE_ARRIVES (R160): the eighth bit of this SPI byte has been clocked in. -/
  | byteArrives (b : Byte)
  deriving DecidableEq, Repr

end Sys2Proof
end

