-- ==== Sys2Proof/Decode.lean ====
section
/-!
DEFINITION. The command a word of the opcode table spells: the table of this block gives no row any bits, so no word spells
a command. (The frames of the peer bus and the bytes of the host port are decoded in Machine/Wire.lean and
Machine/Operands.lean.)
-/

namespace Sys2Proof

/-- No row of spec/opcode_table.json carries bits, so no word of any width spells a command (log entry 21). -/
def decodeTableWord (_nbits _w : Nat) : Option Instr := none

end Sys2Proof
end

