-- ==== Sys2Proof/Config.lean ====
section
/-!
DEFINITION. What the spec leaves open (free values, with no body) and the capacities it fixes.
-/

namespace Sys2Proof.Config

/-- FREE VALUE (log entry 7). The units a lease had left when its count stopped (R139, status STOPPED): nothing the spec
describes depends on it. The model uses it only within the bound the spec sets, 1 to the units the entry was running with. -/
opaque unitsLeft : Nat → Nat

/-- FREE VALUE (log entry 8). The rotation pointer after the close of a verdict window on a clean frame that this station
could not read, whose sender it therefore does not know (R58 gives the pointer from the frame's sender). -/
opaque unreadPointer : Nat → Option StationId

/-- The pool of claim entries (R5). -/
abbrev poolSize : Nat := 48

/-- The claim entries one station may have waiting (R6). -/
abbrev quota : Nat := 4

/-- The frames the host transmit queue holds (R167). -/
abbrev hostQueueSize : Nat := 8

/-- The entries of the lease table (R139). -/
abbrev leaseTableSize : Nat := 8

/-- The notes the inbound note queue holds (R157). -/
abbrev inboundSize : Nat := 8

/-- The frames the catch-up queue holds (R113). -/
abbrev catchUpSize : Nat := 24

/-- The attempts after which a host frame or a copy frame is dropped (R68, R69). -/
abbrev attemptLimit : Nat := 8

/-- The BUSY answers after which a NOTE is dropped (R70). -/
abbrev busyLimit : Nat := 16

/-- The readback-mismatch count at which a station concludes that its ID is duplicated (R63). -/
abbrev mismatchLimit : Nat := 4

/-- The solo-veto limit (R66). -/
abbrev soloVetoLimit : Nat := 4

end Sys2Proof.Config
end

