-- ==== Sys2Proof/Machine/State.lean ====
section
/-!
DEFINITION. The state of one DF416 station, block by block as 00_scope.md lists the blocks, as plain data; the machine right
after reset; and the reasons a step could stop.
-/

namespace Sys2Proof.Machine

/-! ### The replica (chapters 1, 2 and 4) -/

/-- The mode of a claim (R4). -/
inductive Mode
  | sole
  | shared
  deriving DecidableEq, Repr

/-- The class of a claim (R4). -/
inductive ClaimClass
  | high
  | standard
  deriving DecidableEq, Repr

/-- The form of a claim (R13). -/
inductive Form
  | wait
  | tryNow
  deriving DecidableEq, Repr

/-- The state of a lock (R1). -/
inductive LockState
  | free
  | sole
  | shared
  deriving DecidableEq, Repr

/-- A claim entry (R4). -/
structure ClaimEntry where
  station : StationId
  mode    : Mode
  cls     : ClaimClass
  ticket  : TicketId
  deriving DecidableEq, Repr

/-- A lock record (R1). -/
structure LockRecord where
  state      : LockState
  holders    : IdSet
  queue      : List ClaimEntry
  generation : Byte
  deriving DecidableEq, Repr

/-- The record of a lock nobody uses, at generation 0 (R26). -/
def LockRecord.founding : LockRecord :=
  { state := .free, holders := Vector.replicate 16 false, queue := [], generation := 0 }

/-- The lock table: one record for each number 0 to 63 (R1). -/
abbrev Locks := Vector LockRecord 64

/-- A roster state (R76). -/
inductive RosterState
  | absent
  | pending
  | full
  deriving DecidableEq, Repr

/-- The sixteen roster states in ID order (R76). -/
abbrev Roster := Vector RosterState 16

/-- A group tag (R31, R48). -/
structure GroupTag where
  founder : StationId
  count   : Byte
  deriving DecidableEq, Repr

/-- A beacon interval (R126). -/
inductive Interval
  | ms4
  | ms8
  | ms16
  | ms32
  | ms64
  deriving DecidableEq, Repr

/-- The join record (R48). -/
structure JoinRecord where
  joiner : StationId
  source : StationId
  deriving DecidableEq, Repr

/-- One station's copy of the group record, the roster and the lock table (R48, R76, R1). -/
structure Replica where
  tag      : Option GroupTag
  interval : Option Interval
  sequence : Half
  join     : Option JoinRecord
  roster   : Roster
  locks    : Locks
  deriving DecidableEq, Repr

/-- The cleared replica of the resets, exclusion and RESTART (R28, R30, R50, R79). -/
def Replica.cleared : Replica :=
  { tag := none, interval := none, sequence := 0, join := none,
    roster := Vector.replicate 16 .absent, locks := Vector.replicate 64 .founding }

/-! ### Storage (R181) -/

/-- The condition of a word of ECC storage as a read finds it (R181, R182). -/
inductive WordCondition
  | good
  | correctable
  | uncorrectable
  deriving DecidableEq, Repr

/-- The condition of the words of one replica's storage. The division into words is the model's (log entry 6). -/
structure StoreCondition where
  locks  : Vector WordCondition 64
  queues : Vector WordCondition 64
  roster : WordCondition
  join   : WordCondition
  deriving DecidableEq, Repr

/-- Storage without damage. -/
def StoreCondition.sound : StoreCondition :=
  { locks := Vector.replicate 64 .good, queues := Vector.replicate 64 .good, roster := .good, join := .good }

/-! ### Frames (R31, R32) -/

/-- The reason of a STOP (R176). -/
inductive StopReason
  | host
  | fault
  deriving DecidableEq, Repr

/-- The reason of a DECLINE (R104). -/
inductive DeclineReason
  | joinBusy
  | config
  deriving DecidableEq, Repr

/-- The body of a COPY_ROSTER after its joiner ID (R107). -/
structure RosterCopy where
  roster   : Roster
  interval : Interval
  cut      : Half
  deriving DecidableEq, Repr

/-- A frame's kind with its body (R32). -/
inductive Body
  | claim (lock : LockId) (mode : Mode) (cls : ClaimClass) (form : Form) (ticket : TicketId)
  | yield (lock : LockId) (ticket : TicketId)
  | recall (lock : LockId) (target ticket : TicketId)
  | expire (lock : LockId)
  | entry (interval : Interval)
  | leave
  | evict (target : StationId)
  | beacon (interval : Interval)
  | decline (joiner : StationId) (reason : DeclineReason)
  | copyRoster (joiner : StationId) (copy : RosterCopy)
  | copyLock (lock : LockId) (record : LockRecord)
  | note (dest : StationId) (topic : Fin 16) (payload : List Byte)
  | stop (reason : StopReason)
  | admission (joiner : StationId) (copies : Nat)
  deriving DecidableEq, Repr

/-- A frame without its check word (R31). -/
structure Frame where
  tag      : GroupTag
  sender   : StationId
  sequence : Half
  body     : Body
  deriving DecidableEq, Repr

/-! ### Timers -/

/-- A timer: stopped, or running for this many milliseconds from its last start. No time passes in the model; a timer running
out is a command (log entry 4). -/
abbrev Timer := Option Nat

/-- A silence timer: none held for the ID, running for this many milliseconds, or run out and stopped (R83, R84). -/
inductive SilenceTimer
  | none
  | running (ms : Nat)
  | ranOut
  deriving DecidableEq, Repr

/-! ### Host port, tickets and host transmit queue (chapter 9) -/

/-- The phases of an SPI transaction (R160). -/
inductive PortPhase
  | idle
  | command
  | arguments
  | responding
  | discarding
  deriving DecidableEq, Repr

/-- The host port (R160). -/
structure HostPort where
  phase     : PortPhase
  collected : List Byte
  response  : List Byte
  miso      : Option Byte
  deriving DecidableEq, Repr

/-- The command that allocated a ticket; for a CLAIM with its lock (R164). -/
inductive TicketKind
  | claim (lock : LockId)
  | yield
  | recall
  | note
  deriving DecidableEq, Repr

/-- Where a ticket lives (R164). -/
inductive Place
  | queued
  | waiting
  | recorded
  deriving DecidableEq, Repr

/-- A ticket in use (R164). -/
structure Ticket where
  kind  : TicketKind
  place : Place
  deriving DecidableEq, Repr

/-- A frame of the host transmit queue (R167). -/
inductive HostFrame
  | claim (lock : LockId) (mode : Mode) (cls : ClaimClass) (form : Form) (ticket : TicketId)
  | yield (lock : LockId) (ticket : TicketId)
  | recall (lock : LockId) (target ticket : TicketId)
  | note (dest : StationId) (topic : Fin 16) (payload : List Byte) (ticket : TicketId)
  deriving DecidableEq, Repr

/-- An attempt count and a BUSY count (R67). -/
structure Retry where
  attempts : Nat
  busy     : Nat
  deriving DecidableEq, Repr

/-! ### Notification records (R172) -/

/-- The reasons of REFUSED (R16). -/
inductive ClaimRefusal
  | held
  | waiting
  | busy
  | quota
  | pool
  deriving DecidableEq, Repr

/-- The reasons of UNDELIVERED (R154). -/
inductive Undelivered
  | gone
  | noAnswer
  | vetoLimit
  | busyLimit
  deriving DecidableEq, Repr

/-- The reasons of exclusion (R131). -/
inductive ExclusionReason
  | left
  | stale
  | missed
  | soloVeto
  | duplicateId
  | uncorrectable
  | group
  | evicted
  | config
  deriving DecidableEq, Repr

/-- The new state and reason of a STATE_CHANGED record (R135). -/
inductive StateChange
  | founded
  | admitted
  | excluded (reason : ExclusionReason)
  | halted (reason : StopReason)
  deriving DecidableEq, Repr

/-- A record of the notification queue (R172). FAILED has the one reason VETO_LIMIT. -/
inductive Record
  | granted (ticket : TicketId) (lock : LockId) (generation : Byte)
  | refused (ticket : TicketId) (lock : LockId) (reason : ClaimRefusal)
  | yielded (ticket : TicketId) (lock : LockId)
  | notHeld (ticket : TicketId) (lock : LockId)
  | recalled (ticket : TicketId) (lock : LockId)
  | recallDone (ticket : TicketId) (lock : LockId)
  | tooLate (ticket : TicketId) (lock : LockId)
  | notWaiting (ticket : TicketId) (lock : LockId)
  | failed (ticket : TicketId) (lock : LockId)
  | delivered (ticket : TicketId) (dest : StationId)
  | undelivered (ticket : TicketId) (dest : StationId) (reason : Undelivered)
  | leaseExpired (lock : LockId)
  | rosterChanged
  | noteArrived
  | stateChanged (change : StateChange)
  deriving DecidableEq, Repr

/-! ### Round engine (chapter 3) -/

/-- The part of a round the station takes part in: none (the bus idle, or a round it did not see start), its own round-start
pattern placed, the request window, the frame part, the verdict window, or a verdict window just closed, after which a new
request window opens at once (R52, R53). -/
inductive RoundPhase
  | idle
  | started
  | request
  | frame
  | verdict
  | between
  deriving DecidableEq, Repr

/-- The sources the outbound selector reads, in the order of R72; a host frame is known by its ticket. -/
inductive Source
  | stop
  | leave
  | evict
  | expire
  | entry
  | decline
  | copy
  | host (ticket : TicketId)
  | beacon
  deriving DecidableEq, Repr

/-- A frame the selector chose: its source, and the body as it stood there when the request window opened (R74). -/
structure Offer where
  source : Source
  body   : Body
  deriving DecidableEq, Repr

/-- The frame in flight (R75): what was offered, the frame transmitted, its bytes with the check word, and whether its
outcome is to be discarded at the close because its source has been cleared. -/
structure InFlight where
  offer     : Offer
  frame     : Frame
  bytes     : List Byte
  discarded : Bool
  deriving DecidableEq, Repr

/-- A request mark (R55). -/
inductive RequestMark
  | ordinary
  | expedited
  deriving DecidableEq, Repr

/-- A verdict mark (R60). -/
inductive VerdictMark
  | veto
  | stale
  | busy
  | taken
  deriving DecidableEq, Repr

/-- What the station found in the frame part of the round and the mark it placed (R35, R62, R64).
`carried`: the round carried a frame at all (R57). `frame`: the frame received, when it was well-formed (R34).
`vetoLine2`: the mark is a VETO placed on line 2 of R35. `mismatch`: the station transmitted and its readback did not match.
`mismatchReached`: this readback brought the mismatch count to its limit (R63). `duplicate`: the frame bears this station's
ID in a round the station did not transmit in (R64). `halted`: the station was in HALTED, so its state forbade a mark (R54). -/
structure Reception where
  carried         : Bool
  frame           : Option Frame
  vetoLine2       : Bool
  mismatch        : Bool
  mismatchReached : Bool
  duplicate       : Bool
  halted          : Bool
  mark            : Option VerdictMark
  deriving DecidableEq, Repr

/-- The round engine with the frame checker's decision and the selector's choice. -/
structure RoundEngine where
  pointer     : Option StationId
  phase       : RoundPhase
  chosen      : Option Offer
  requestMark : Option RequestMark
  won         : Bool
  inFlight    : Option InFlight
  reception   : Option Reception
  mismatches  : Nat
  soloVetoes  : Nat
  suppressed  : Bool
  deriving DecidableEq, Repr

/-! ### Roster monitor (chapter 4) and entry engine (chapter 5) -/

/-- The roster monitor's local state (R79). -/
structure RosterMonitor where
  silence      : Vector SilenceTimer 16
  beaconTimer  : Timer
  beaconDue    : Bool
  pendingEvict : IdSet
  deriving DecidableEq, Repr

/-- The roster monitor with no timer and an empty set (R79). -/
def RosterMonitor.stopped : RosterMonitor :=
  { silence := Vector.replicate 16 .none, beaconTimer := none, beaconDue := false,
    pendingEvict := Vector.replicate 16 false }

/-- A candidate group with its tracked count (R97). -/
structure Candidate where
  tag     : GroupTag
  tracked : Half
  deriving DecidableEq, Repr

/-- The listening state (R97). -/
structure Listening where
  quiet     : Timer
  backoff   : Timer
  candidate : Option Candidate
  deriving DecidableEq, Repr

/-- The listening state stopped and absent (R97). -/
def Listening.stopped : Listening := { quiet := none, backoff := none, candidate := none }

/-- The ending of an aborted join (R111). -/
inductive Ending
  | listening
  | left
  deriving DecidableEq, Repr

/-- The join state of a station in ENTERING or COPYING (R111), with its pending ENTRY (R112) and the note that a LEAVE
command was taken while its ENTRY was in flight (R121). -/
structure JoinState where
  target            : Option GroupTag
  tracked           : Option Half
  entryPending      : Bool
  leaveAtEntryClose : Bool
  isOpen            : Bool
  joinTimer         : Timer
  source            : Option StationId
  rosterCopy        : Option RosterCopy
  lockCopies        : Vector (Option LockRecord) 64
  stallTimer        : Timer
  catchUp           : List Frame
  catchUpCount      : Half
  abort             : Option Ending
  deriving DecidableEq, Repr

/-- The join state absent, stopped, no and empty (R111). -/
def JoinState.none : JoinState :=
  { target := Option.none, tracked := Option.none, entryPending := false, leaveAtEntryClose := false, isOpen := false,
    joinTimer := Option.none, source := Option.none, rosterCopy := Option.none,
    lockCopies := Vector.replicate 64 Option.none, stallTimer := Option.none, catchUp := [], catchUpCount := 0,
    abort := Option.none }

/-- A pending DECLINE (R105). -/
structure Decline where
  joiner : StationId
  reason : DeclineReason
  deriving DecidableEq, Repr

/-- A frame on the copy cursor's list (R107). -/
inductive CopyFrame
  | roster
  | lock (lock : LockId)
  | admission (copies : Nat)
  deriving DecidableEq, Repr

/-- The copy at a copy source: the joiner, the shadow with the condition of its storage, and the copy cursor's remaining
frames, the one to offer first (R106, R107, R181). -/
structure CopyState where
  joiner : StationId
  shadow : Replica
  ecc    : StoreCondition
  frames : List CopyFrame
  deriving DecidableEq, Repr

/-! ### Lease unit, note store, fault unit and life-cycle logic (chapters 6, 7, 8 and 10) -/

/-- A lease entry in use (R139); the FREE entries are those of the eight that are not listed. -/
inductive Lease
  | reserved (lock : LockId) (units : Byte) (ticket : TicketId)
  | running (lock : LockId) (units : Byte)
  | stopped (lock : LockId) (units : Byte)
  | countedOut (lock : LockId)
  | reported (lock : LockId)
  deriving DecidableEq, Repr

/-- An inbound note (R157); its length is the payload's. -/
structure InboundNote where
  sender  : StationId
  topic   : Fin 16
  payload : List Byte
  deriving DecidableEq, Repr

/-- The kinds of fault (R184). -/
inductive FaultKind
  | stale
  | missed
  | soloVeto
  | duplicateId
  | uncorrectable
  | copyFault
  | catchupOverflow
  | copyStall
  | group
  | evicted
  | config
  deriving DecidableEq, Repr

/-- The fault record's one fault (R184). -/
structure FaultEntry where
  kind     : FaultKind
  sequence : Half
  sender   : Option StationId
  deriving DecidableEq, Repr

/-- The four counters (R185). -/
structure Counters where
  vetoesCast    : Half
  ownVoided     : Half
  framesDropped : Half
  corrected     : Half
  deriving DecidableEq, Repr

/-- The seven station states (R123). -/
inductive Life
  | off
  | listening
  | entering
  | copying
  | member
  | excluded
  | halted
  deriving DecidableEq, Repr

/-- The configuration START gives (R126, R127). -/
structure StartConfig where
  interval    : Interval
  autoRejoin  : Bool
  stopOnFault : Bool
  deriving DecidableEq, Repr

/-- Why a LEAVE is pending (R94). -/
inductive LeaveSource
  | command
  | abort
  | soloVeto
  deriving DecidableEq, Repr

/-! ### The station -/

/-- The state of one station. `strapPins` are the levels at the strap pins and `straps` the latched ones (R124).
`lateDamage`, `freeCount` and `pending` are the model's own: the conditions the words take between the writes of an install and
the reads of the applications after it at the same close (log entry 40), the count the free values of Config are applied to, and
the queue of commands waiting. -/
structure State where
  port            : HostPort
  tickets         : Vector (Option Ticket) 16
  hostQueue       : List HostFrame
  hostRetry       : Retry
  busyWait        : Timer
  round           : RoundEngine
  copyRetry       : Retry
  replica         : Replica
  ecc             : StoreCondition
  lateDamage      : StoreCondition
  monitor         : RosterMonitor
  listening       : Listening
  join            : JoinState
  declines        : List Decline
  copy            : Option CopyState
  leases          : List Lease
  expireSet       : LockSet
  inbound         : List InboundNote
  records         : List Record
  fault           : Option FaultEntry
  counters        : Counters
  life            : Life
  exclusionReason : Option ExclusionReason
  haltReason      : Option StopReason
  config          : Option StartConfig
  foundingCount   : Byte
  rejoin          : Timer
  pendingLeave    : Option LeaveSource
  pendingStop     : Option StopReason
  straps          : Straps
  strapPins       : Straps
  freeCount       : Nat
  pending         : List Instr
  deriving DecidableEq, Repr

/-- The host port after power-on reset (R160). -/
def HostPort.reset : HostPort := { phase := .idle, collected := [], response := [], miso := none }

/-- The round engine after a reset: pointer unknown, no frame in flight, both counts 0, suppression ended (R137). -/
def RoundEngine.reset : RoundEngine :=
  { pointer := none, phase := .idle, chosen := none, requestMark := none, won := false, inFlight := none,
    reception := none, mismatches := 0, soloVetoes := 0, suppressed := false }

/-- No attempts and no BUSY answers (R67). -/
def Retry.zero : Retry := { attempts := 0, busy := 0 }

/-- The counters cleared (R185). -/
def Counters.zero : Counters := { vetoesCast := 0, ownVoided := 0, framesDropped := 0, corrected := 0 }

/-- The station right after power-on reset (R137), with the straps read low (DESIGN CHOICE, log entry 5). -/
def State.reset : State :=
  { port := .reset, tickets := Vector.replicate 16 none, hostQueue := [], hostRetry := .zero, busyWait := none,
    round := .reset, copyRetry := .zero, replica := .cleared, ecc := .sound, lateDamage := .sound, monitor := .stopped,
    listening := .stopped,
    join := .none, declines := [], copy := none, leases := [], expireSet := Vector.replicate 64 false, inbound := [],
    records := [], fault := none, counters := .zero, life := .off, exclusionReason := none, haltReason := none,
    config := none, foundingCount := 0, rejoin := none, pendingLeave := none, pendingStop := none,
    straps := { id := 0, rate := false }, strapPins := { id := 0, rate := false }, freeCount := 0, pending := [] }

/-- The reasons a step could stop with a fault. There are none: the spec gives every command of the table an effect in every
state, and a fault of the station is its fault record (R184), which is State. -/
inductive Fault : Type
  deriving DecidableEq, Repr

/-- The reasons a step could be refused. -/
inductive Refusal
  /-- Raised by `exec` alone, for a command that has no meaning yet; no arm raises it now. Safe: it only stops. -/
  | notModelled (mnemonic : String)
  deriving DecidableEq, Repr

end Sys2Proof.Machine
end

