-- ==== Sys2Proof/Machine/Sets.lean ====
section
/-!
DEFINITION. Sets of station IDs and lock numbers as tables of membership: no order, no repeats.
-/

namespace Sys2Proof.Machine

/-- `i` is in the set. -/
def has {n : Nat} (v : Vector Bool n) (i : Fin n) : Bool := v[i]

/-- The set with `i` added. -/
def addTo {n : Nat} (v : Vector Bool n) (i : Fin n) : Vector Bool n := put v i true

/-- The set with `i` taken out. -/
def dropFrom {n : Nat} (v : Vector Bool n) (i : Fin n) : Vector Bool n := put v i false

/-- The set holds nothing. -/
def isEmptySet {n : Nat} (v : Vector Bool n) : Bool := (List.finRange n).all fun i => !has v i

/-- The lowest number in the set (R72: the lowest target ID, the lowest lock number). -/
def lowest {n : Nat} (v : Vector Bool n) : Option (Fin n) := (List.finRange n).find? (has v)

/-- The set of no station. -/
def noIds : IdSet := Vector.replicate 16 false

/-- The set of no lock. -/
def noLocks : LockSet := Vector.replicate 64 false

end Sys2Proof.Machine
end

