-- ==== Sys2Proof/Machine/Flags.lean ====
section
/-!
DEFINITION. The comparisons, flags and counts that the rules compute: sequence comparison, group rank, the marks of a verdict
window and the verdict on a frame, saturating counters, the interrupt line and the flags of STATUS.
-/

namespace Sys2Proof.Machine

/-- How a sequence field stands to a count (00_scope.md, Numbers; R43). -/
inductive Standing
  | inStep
  | ahead
  | behind
  deriving DecidableEq, Repr

/-- The standing of a field against a count: the difference modulo 65536 is 0, 1 to 32767, or 32768 to 65535 (R43). -/
def standing (field count : Half) : Standing :=
  let d := (field - count).toNat
  if d = 0 then .inStep else if d < 32768 then .ahead else .behind

/-- The first tag ranks higher than the second: lower founder ID, or the same founder and the higher count, as plain numbers
(R101). -/
def ranksHigher (a b : GroupTag) : Bool :=
  a.founder < b.founder || (a.founder == b.founder && b.count.toNat < a.count.toNat)

/-- Some slot of the window reads this mark. -/
def someSlot (slots : VerdictSlots) (m : VerdictSlot) : Bool := allIds.any fun i => slots[i] == m

/-- A frame is clean when no slot holds VETO (R36). -/
def clean (slots : VerdictSlots) : Bool := !someSlot slots .veto

/-- The void classes (R36). -/
inductive VoidClass
  | veto
  | stale
  | busy
  | noAnswer
  deriving DecidableEq, Repr

/-- The fate of a frame at the close of its verdict window (R36). -/
inductive Verdict
  | accepted
  | void (cls : VoidClass)
  deriving DecidableEq, Repr

/-- The verdict on a frame from the sixteen slots; the first line of R36 that applies. -/
def verdictOf (body : Body) (slots : VerdictSlots) : Verdict :=
  if someSlot slots .veto then .void .veto
  else if someSlot slots .stale then .void .stale
  else
    match body with
    | .note dest _ _ =>
      match slots[dest] with
      | .taken => .accepted
      | .busy => .void .busy
      | _ => .void .noAnswer
    | _ => .accepted

/-- A VETO stands in a slot other than `id` (R65). -/
def vetoedByOthers (slots : VerdictSlots) (id : StationId) : Bool :=
  allIds.any fun i => i != id && slots[i] == .veto

/-- A counter advanced by `n`, held at 65535 (R185). -/
def saturate (h : Half) (n : Nat) : Half := BitVec.ofNat 16 (min 65535 (h.toNat + n))

/-- The interrupt line is driven low while the notification queue holds a record (R175). -/
def irqLow (s : State) : Bool := !s.records.isEmpty

/-- The frozen flag (R170). -/
def frozen (s : State) : Bool := s.life == .halted

/-- The flags byte of STATUS: bit 0 pointer known, bit 1 fault present, bit 2 frozen (section 12.2); the bits it does not describe
read 0 (log entry 39). -/
def statusFlags (s : State) : Byte :=
  0#5 ++ BitVec.ofBool (frozen s) ++ BitVec.ofBool s.fault.isSome ++ BitVec.ofBool s.round.pointer.isSome

end Sys2Proof.Machine
end

