-- ==== Sys2Proof/Machine/LockTable.lean ====
section
/-!
DEFINITION. The lock table as chapter 1 changes it: claims, yields, recalls, expiries, promotion and the release of a departed
station, each a function of the table and the frame alone (R51). What an application tells the stations it concerns comes back
as a list of events in the order of the rule (R11).
-/

namespace Sys2Proof.Machine

/-- What an application tells one station (R11, R15). -/
inductive TableEvent
  | granted (station : StationId) (ticket : TicketId) (lock : LockId) (generation : Byte)
  | refused (station : StationId) (ticket : TicketId) (lock : LockId) (reason : ClaimRefusal)
  | waits (station : StationId) (ticket : TicketId) (lock : LockId)
  | yielded (station : StationId) (ticket : TicketId) (lock : LockId)
  | notHeld (station : StationId) (ticket : TicketId) (lock : LockId)
  | recalled (station : StationId) (target : TicketId) (lock : LockId)
  | recallDone (station : StationId) (ticket : TicketId) (lock : LockId)
  | tooLate (station : StationId) (ticket : TicketId) (lock : LockId)
  | notWaiting (station : StationId) (ticket : TicketId) (lock : LockId)
  | expired (station : StationId) (lock : LockId)
  deriving DecidableEq, Repr

/-- The station an event concerns (R11). -/
def TableEvent.station : TableEvent → StationId
  | .granted s _ _ _ | .refused s _ _ _ | .waits s _ _ | .yielded s _ _ | .notHeld s _ _ | .recalled s _ _
  | .recallDone s _ _ | .tooLate s _ _ | .notWaiting s _ _ | .expired s _ => s

/-- A table with the events of its change. -/
abbrev TableChange := Locks × List TableEvent

/-- The lock state a grant in a mode gives (R2). -/
def lockStateOf : Mode → LockState
  | .sole => .sole
  | .shared => .shared

/-- A grant: the station joins the holder set, the state becomes the mode's, the generation is incremented (R3, R14, R17). -/
def grant (station : StationId) (mode : Mode) (r : LockRecord) : LockRecord :=
  { r with state := lockStateOf mode, holders := addTo r.holders station, generation := r.generation + 1 }

/-- The head entry can be granted: SOLE when the holder set is empty, SHARED when the lock is FREE or SHARED (R17). -/
def grantable (r : LockRecord) (mode : Mode) : Bool :=
  match mode with
  | .sole => isEmptySet r.holders
  | .shared => r.state != .sole

/-- Promotion over a queue: heads are granted in order until one cannot be (R17, R18). -/
def promoteFrom (lock : LockId) : List ClaimEntry → LockRecord → LockRecord × List TableEvent
  | [], r => ({ r with queue := [] }, [])
  | e :: rest, r =>
    if grantable r e.mode then
      let r' := grant e.station e.mode r
      let p := promoteFrom lock rest r'
      (p.1, .granted e.station e.ticket lock r'.generation :: p.2)
    else ({ r with queue := e :: rest }, [])

/-- Promotion on a lock (R17). -/
def promote (lock : LockId) (r : LockRecord) : LockRecord × List TableEvent := promoteFrom lock r.queue r

/-- A holder leaves: the lock becomes FREE when the set is now empty, and keeps its state otherwise (R2, R20). -/
def removeHolder (station : StationId) (r : LockRecord) : LockRecord :=
  if has r.holders station then
    let holders := dropFrom r.holders station
    { r with holders := holders, state := if isEmptySet holders then .free else r.state }
  else r

/-- Insertion of a HIGH entry: directly after the last HIGH entry, or at the head if there is none (R7). -/
def insertHigh (e : ClaimEntry) : List ClaimEntry → List ClaimEntry
  | [] => [e]
  | x :: rest => if (x :: rest).any (fun y => y.cls == .high) then x :: insertHigh e rest else e :: x :: rest

/-- Insertion of a new entry in the place its class gives (R7). -/
def insertEntry (e : ClaimEntry) (queue : List ClaimEntry) : List ClaimEntry :=
  match e.cls with
  | .high => insertHigh e queue
  | .standard => queue ++ [e]

/-- The entries of one station in all queues (R6). -/
def entriesOf (station : StationId) (locks : Locks) : Nat :=
  (allLocks.map fun k => (locks[k].queue.filter fun e => e.station == station).length).sum

/-- The pool entries in use: the total length of all queues (R5). -/
def poolInUse (locks : Locks) : Nat := (allLocks.map fun k => locks[k].queue.length).sum

/-- The outcome of the checks on a CLAIM (R13). -/
inductive ClaimOutcome
  | refused (reason : ClaimRefusal)
  | granted
  | waits
  deriving DecidableEq, Repr

/-- Check 3 of R13. -/
def grantedAtOnce (r : LockRecord) (mode : Mode) : Bool :=
  r.queue.isEmpty && (r.state == .free || (r.state == .shared && mode == .shared))

/-- The checks on a CLAIM, in their order (R13). -/
def claimOutcome (station : StationId) (lock : LockId) (mode : Mode) (form : Form) (locks : Locks) : ClaimOutcome :=
  let r := locks[lock]
  if has r.holders station then .refused .held
  else if r.queue.any (fun e => e.station == station) then .refused .waiting
  else if grantedAtOnce r mode then .granted
  else if form == .tryNow then .refused .busy
  else if Config.quota ≤ entriesOf station locks then .refused .quota
  else if Config.poolSize ≤ poolInUse locks then .refused .pool
  else .waits

/-- The application of a CLAIM (R13 to R16). -/
def applyClaim (station : StationId) (lock : LockId) (mode : Mode) (cls : ClaimClass) (form : Form) (ticket : TicketId)
    (locks : Locks) : TableChange :=
  match claimOutcome station lock mode form locks with
  | .refused reason => (locks, [.refused station ticket lock reason])
  | .granted =>
    let r := grant station mode locks[lock]
    (put locks lock r, [.granted station ticket lock r.generation])
  | .waits =>
    let e : ClaimEntry := { station := station, mode := mode, cls := cls, ticket := ticket }
    let r := locks[lock]
    let p := promote lock { r with queue := insertEntry e r.queue }
    (put locks lock p.1, .waits station ticket lock :: p.2)

/-- A holder leaves one lock and promotion runs on it (R20, R23). -/
def giveUp (station : StationId) (lock : LockId) (locks : Locks) : TableChange :=
  let p := promote lock (removeHolder station locks[lock])
  (put locks lock p.1, p.2)

/-- The application of a YIELD (R20). -/
def applyYield (station : StationId) (lock : LockId) (ticket : TicketId) (locks : Locks) : TableChange :=
  if has locks[lock].holders station then
    let p := giveUp station lock locks
    (p.1, .yielded station ticket lock :: p.2)
  else (locks, [.notHeld station ticket lock])

/-- The entry a RECALL names (R21, case 1). -/
def isTarget (station : StationId) (target : TicketId) (e : ClaimEntry) : Bool :=
  e.station == station && e.ticket == target

/-- The application of a RECALL (R21). -/
def applyRecall (station : StationId) (lock : LockId) (target ticket : TicketId) (locks : Locks) : TableChange :=
  let r := locks[lock]
  if r.queue.any (isTarget station target) then
    let p := promote lock { r with queue := r.queue.eraseP (isTarget station target) }
    (put locks lock p.1, .recalled station target lock :: .recallDone station ticket lock :: p.2)
  else if has r.holders station then (locks, [.tooLate station ticket lock])
  else (locks, [.notWaiting station ticket lock])

/-- The application of an EXPIRE: the table changes as for a yield (R23). -/
def applyExpire (station : StationId) (lock : LockId) (locks : Locks) : TableChange :=
  let p := giveUp station lock locks
  (p.1, .expired station lock :: p.2)

/-- The release of a departed station on one lock: holder set, queue, promotion (R24). -/
def releaseLock (station : StationId) (lock : LockId) (r : LockRecord) : LockRecord × List TableEvent :=
  let r' := removeHolder station r
  promote lock { r' with queue := r'.queue.eraseP fun e => e.station == station }

/-- The release of a departed station over a list of locks, in its order (R24, R25). -/
def releaseOver (station : StationId) : List LockId → Locks → TableChange
  | [], locks => (locks, [])
  | k :: rest, locks =>
    let p := releaseLock station k locks[k]
    let q := releaseOver station rest (put locks k p.1)
    (q.1, p.2 ++ q.2)

/-- The release of a departed station, locks in ascending number (R24). -/
def release (station : StationId) (locks : Locks) : TableChange := releaseOver station allLocks locks

end Sys2Proof.Machine
end

