-- ==== Sys2Proof/Machine/Membership.lean ====
section
/-!
DEFINITION. The application of a table frame to a replica (R38): the lock-table frames through LockTable.lean, and EVICT,
LEAVE, ENTRY and ADMIT with their effect on the roster and the join record (chapters 4 and 5). Each is a function of the
replica and the frame alone (R51). It also says what the application tells the roster monitor and the entry engine.
-/

namespace Sys2Proof.Machine

/-- A change of one ID's roster state within an application (R95). -/
structure RosterChange where
  id  : StationId
  was : RosterState
  now : RosterState
  deriving DecidableEq, Repr

/-- What an ENTRY came to (R104), with the answering member. -/
inductive EntryOutcome
  | declined (answering joiner : StationId) (reason : DeclineReason)
  | opened (source joiner : StationId)
  deriving DecidableEq, Repr

/-- A replica after an application, with what the application tells the stations and the blocks. -/
structure Applied where
  replica : Replica
  events  : List TableEvent
  changes : List RosterChange
  entry   : Option EntryOutcome
  deriving DecidableEq, Repr

/-- The application that changes nothing but the sequence to come. -/
def Applied.nothing (r : Replica) : Applied := { replica := r, events := [], changes := [], entry := none }

/-- A lock-table change as an application. -/
def Applied.ofTable (r : Replica) (c : TableChange) : Applied :=
  { replica := { r with locks := c.1 }, events := c.2, changes := [], entry := none }

/-- One ID takes a new roster state, and the change is noted. -/
def setRoster (id : StationId) (now : RosterState) (a : Applied) : Applied :=
  { a with
    replica := { a.replica with roster := put a.replica.roster id now },
    changes := a.changes ++ [{ id := id, was := a.replica.roster[id], now := now }] }

/-- The join record is cleared. -/
def clearJoin (a : Applied) : Applied := { a with replica := { a.replica with join := none } }

/-- A join whose copy source departs is cancelled (R91). -/
def cancelJoinOf (source : StationId) (a : Applied) : Applied :=
  match a.replica.join with
  | some j => if j.source == source then clearJoin (setRoster j.joiner .absent a) else a
  | none => a

/-- A FULL station departs: its release, its roster change, and the join it was copy source of (R89, R93, R103). -/
def depart (x : StationId) (r : Replica) : Applied :=
  cancelJoinOf x (setRoster x .absent (Applied.ofTable r (release x r.locks)))

/-- A PENDING station ceases to be listed, with its join record (R90, R93, R103). -/
def unlist (x : StationId) (r : Replica) : Applied := clearJoin (setRoster x .absent (Applied.nothing r))

/-- A station ceases to belong to the group, by its EVICT or its own LEAVE (R89, R90, R93). -/
def remove (x : StationId) (r : Replica) : Applied :=
  match r.roster[x] with
  | .full => depart x r
  | .pending => unlist x r
  | .absent => Applied.nothing r

/-- The answering member: the lowest FULL ID (R104). -/
def answering (roster : Roster) : Option StationId := allIds.find? fun i => roster[i] == .full

/-- An ENTRY settles any earlier standing of the entering station; the steps that change the replica (R103). -/
def settleEarlier (j : StationId) (r : Replica) : Applied := remove j r

/-- The decision on an ENTRY, its earlier standing settled (R104). Where no ID is FULL there is no answering member and nothing
changes; a member's own ID is FULL, so no member meets this (log entry 23). -/
def decideEntry (j : StationId) (interval : Interval) (a : Applied) : Applied :=
  match answering a.replica.roster with
  | none => a
  | some m =>
    if a.replica.interval ≠ some interval then { a with entry := some (.declined m j .config) }
    else if a.replica.join.isSome then { a with entry := some (.declined m j .joinBusy) }
    else
      let b := setRoster j .pending a
      { b with replica := { b.replica with join := some { joiner := j, source := m } }, entry := some (.opened m j) }

/-- The application of an ADMIT (R110). -/
def applyAdmit (j : StationId) (r : Replica) : Applied :=
  match r.roster[j] with
  | .pending => clearJoin (setRoster j .full (Applied.nothing r))
  | _ => Applied.nothing r

/-- A lock-table frame has effect only from a FULL sender (R10). -/
def ifFull (sender : StationId) (r : Replica) (a : Applied) : Applied :=
  if r.roster[sender] == .full then a else Applied.nothing r

/-- The kind's own effect of a table frame, before the sequence advances (R38). A frame of another kind has none. -/
def ownEffect (f : Frame) (r : Replica) : Applied :=
  match f.body with
  | .claim k m c form t => ifFull f.sender r (Applied.ofTable r (applyClaim f.sender k m c form t r.locks))
  | .yield k t => ifFull f.sender r (Applied.ofTable r (applyYield f.sender k t r.locks))
  | .recall k target t => ifFull f.sender r (Applied.ofTable r (applyRecall f.sender k target t r.locks))
  | .expire k => ifFull f.sender r (Applied.ofTable r (applyExpire f.sender k r.locks))
  | .evict x => ifFull f.sender r (remove x r)
  | .leave => remove f.sender r
  | .entry interval => decideEntry f.sender interval (settleEarlier f.sender r)
  | .admission j _ => applyAdmit j r
  | .beacon _ | .decline _ _ | .copyRoster _ _ | .copyLock _ _ | .note _ _ _ | .stop _ => Applied.nothing r

/-- The application of a table frame: its own effect, then the sequence advances by one (R38, R41). -/
def applyFrame (f : Frame) (r : Replica) : Applied :=
  let a := ownEffect f r
  { a with replica := { a.replica with sequence := a.replica.sequence + 1 } }

/-- The eight kinds that are table frames (R33). -/
def isTable : Body → Bool
  | .claim _ _ _ _ _ | .yield _ _ | .recall _ _ _ | .expire _ | .entry _ | .leave | .evict _ | .admission _ _ => true
  | .beacon _ | .decline _ _ | .copyRoster _ _ | .copyLock _ _ | .note _ _ _ | .stop _ => false

/-- The catch-up frames applied in their order (R117). -/
def applyAll : List Frame → Replica → Replica
  | [], r => r
  | f :: rest, r => applyAll rest (applyFrame f r).replica

end Sys2Proof.Machine
end

