-- ==== Sys2Proof/Machine/Storage.lean ====
section
/-!
DEFINITION. Reads of ECC storage (R181): which words an operation reads, and what the reads find. The spec does not divide the
storage into words: the model takes one word for each lock record, one for each claim queue, one for the roster and one for
the join record (DESIGN CHOICE, log entry 6).
-/

namespace Sys2Proof.Machine

/-- A word of a replica's storage. -/
inductive StoreWord
  | lock (k : LockId)
  | queue (k : LockId)
  | roster
  | join
  deriving DecidableEq, Repr

/-- The condition of a word. -/
def conditionOf (w : StoreWord) (c : StoreCondition) : WordCondition :=
  match w with
  | .lock k => c.locks[k]
  | .queue k => c.queues[k]
  | .roster => c.roster
  | .join => c.join

/-- The corrected word is written back (R181). -/
def writeBack (w : StoreWord) (c : StoreCondition) : StoreCondition :=
  match w with
  | .lock k => { c with locks := put c.locks k .good }
  | .queue k => { c with queues := put c.queues k .good }
  | .roster => { c with roster := .good }
  | .join => { c with join := .good }

/-- What a run of reads leaves: the storage, how many reads corrected an error, and whether every word could be read. -/
structure ReadResult where
  ecc       : StoreCondition
  corrected : Nat
  readable  : Bool
  deriving DecidableEq, Repr

/-- Reads in order, stopping at the first uncorrectable word (R181, R182). -/
def readWords : List StoreWord → StoreCondition → ReadResult
  | [], c => { ecc := c, corrected := 0, readable := true }
  | w :: rest, c =>
    match conditionOf w c with
    | .good => readWords rest c
    | .correctable =>
      let p := readWords rest (writeBack w c)
      { p with corrected := p.corrected + 1 }
    | .uncorrectable => { ecc := c, corrected := 0, readable := false }

/-- The words of every lock record and queue. -/
def allTableWords : List StoreWord := allLocks.flatMap fun k => [.lock k, .queue k]

/-- Every word of a replica. -/
def allWords : List StoreWord := .roster :: .join :: allTableWords

/-- A CLAIM reaches checks 5 and 6, which count entries in every queue (R13). -/
def countsEntries (f : Frame) (r : Replica) : Bool :=
  match f.body with
  | .claim k m _ form _ =>
    match claimOutcome f.sender k m form r.locks with
    | .refused .quota | .refused .pool | .waits => true
    | _ => false
  | _ => false

/-- The words a lock-table frame for lock `k` reads: the sender's roster state, and for a FULL sender the lock and its queue,
and every queue where entries are counted. -/
def lockFrameReads (k : LockId) (f : Frame) (r : Replica) : List StoreWord :=
  if r.roster[f.sender] == .full then
    [.roster, .lock k, .queue k] ++ (if countsEntries f r then allLocks.map .queue else [])
  else [.roster]

/-- The words the departure of `x` reads. -/
def departureReads (x : StationId) (r : Replica) : List StoreWord :=
  match r.roster[x] with
  | .full => .roster :: .join :: allTableWords
  | .pending => [.roster, .join]
  | .absent => [.roster]

/-- The words an application reads at the station `self`; a copy source reads the whole replica for its shadow (R106, R181). An
EVICT of this station carries out no application, and only its sender's state is looked up (R92). -/
def applicationReads (self : StationId) (f : Frame) (r : Replica) : List StoreWord :=
  match f.body with
  | .claim k _ _ _ _ => lockFrameReads k f r
  | .yield k _ => lockFrameReads k f r
  | .recall k _ _ => lockFrameReads k f r
  | .expire k => lockFrameReads k f r
  | .evict x => if r.roster[f.sender] == .full && x != self then departureReads x r else [.roster]
  | .leave => departureReads f.sender r
  | .entry _ =>
    match (ownEffect f r).entry with
    | some (.opened source _) => if source == self then allWords else .join :: departureReads f.sender r
    | _ => .join :: departureReads f.sender r
  | .admission _ _ => [.roster, .join]
  | .beacon _ | .decline _ _ | .copyRoster _ _ | .copyLock _ _ | .note _ _ _ | .stop _ => []

/-- The words of the shadow a copy frame is built from (R181). -/
def copyReads : CopyFrame → List StoreWord
  | .roster => [.roster, .join]
  | .lock k => [.lock k, .queue k]
  | .admission _ => [.join]

end Sys2Proof.Machine
end

