-- ==== Sys2Proof/Machine/Ops.lean ====
section
/-!
DEFINITION. The named operations over the station's state that the commands share: timers, records and tickets, leases, the
fault unit, reads of storage, exclusion, halt, entry to LISTENING, the endings of a join, and the host transmit queue's head.
-/

namespace Sys2Proof.Machine

/-! ### Who the station is, and its beacon interval -/

/-- The station's own ID: the latched one (R124). -/
def self (s : State) : StationId := s.straps.id

/-- Milliseconds of an interval. -/
def intervalMs : Interval → Nat
  | .ms4 => 4
  | .ms8 => 8
  | .ms16 => 16
  | .ms32 => 32
  | .ms64 => 64

/-- The interval of the station's own START configuration. Only OFF has none, and no timer starts there (log entry 20). -/
def configInterval (s : State) : Interval :=
  match s.config with
  | some c => c.interval
  | none => .ms4

/-- The interval that applies to the station: the group's, or its own configuration's outside a group (00_scope.md, Time). -/
def ownInterval (s : State) : Interval :=
  match s.replica.interval with
  | some i => i
  | none => configInterval s

/-- A timer started for `n` beacon intervals of the group. -/
def groupBeats (n : Nat) (s : State) : Timer := some (n * intervalMs (ownInterval s))

/-- A timer started for `n` beacon intervals of the station's configuration. -/
def configBeats (n : Nat) (s : State) : Timer := some (n * intervalMs (configInterval s))

/-- The count a fault record gets: a member's sequence count, a joiner's tracked count, otherwise 0 (R184; log entry 16). A LOOK
in HALTED writes the frozen count instead (R183). -/
def ownCount (s : State) : Half :=
  match s.life with
  | .member => s.replica.sequence
  | .entering | .copying => s.join.tracked.getD 0
  | .off | .listening | .excluded | .halted => 0

/-! ### Records and tickets (R164 to R166, R172, R173) -/

/-- The ticket a record is the final record of. -/
def ticketOfRecord : Record → Option TicketId
  | .granted t _ _ | .refused t _ _ | .yielded t _ | .notHeld t _ | .recalled t _ | .recallDone t _ | .tooLate t _
  | .notWaiting t _ | .failed t _ | .delivered t _ | .undelivered t _ _ => some t
  | .leaseExpired _ | .rosterChanged | .noteArrived | .stateChanged _ => none

/-- The record is a STATE_CHANGED. -/
def isStateChanged : Record → Bool
  | .stateChanged _ => true
  | _ => false

/-- A record joins the queue: coalesced kinds fold into an unread one, STATE_CHANGED replaces it in its place (R173). -/
def enqueue (r : Record) (q : List Record) : List Record :=
  match r with
  | .rosterChanged => if q.contains .rosterChanged then q else q ++ [r]
  | .noteArrived => if q.contains .noteArrived then q else q ++ [r]
  | .stateChanged _ => if q.any isStateChanged then q.map fun x => if isStateChanged x then r else x else q ++ [r]
  | _ => q ++ [r]

/-- A ticket in use takes a new place (R166). -/
def placeTicket (t : TicketId) (p : Place) (s : State) : State :=
  match s.tickets[t] with
  | some k => { s with tickets := put s.tickets t (some { k with place := p }) }
  | none => s

/-- A ticket becomes free (R166). -/
def freeTicket (t : TicketId) (s : State) : State := { s with tickets := put s.tickets t none }

/-- A record without a ticket is made (R172). -/
def addRecord (r : Record) (s : State) : State := { s with records := enqueue r s.records }

/-- A record is made, and the ticket it carries is RECORDED (R166). -/
def makeRecord (r : Record) (s : State) : State :=
  match ticketOfRecord r with
  | some t => addRecord r (placeTicket t .recorded s)
  | none => addRecord r s

/-- The lowest free ticket (R165). -/
def lowestFreeTicket (s : State) : Option TicketId := allIds.find? fun t => s.tickets[t] == none

/-! ### Leases (chapter 7) -/

/-- The entry is RESERVED under this ticket. -/
def reservedUnder (t : TicketId) : Lease → Bool
  | .reserved _ _ t' => t' == t
  | _ => false

/-- The entry is RUNNING for this lock. -/
def runningFor (k : LockId) : Lease → Bool
  | .running k' _ => k' == k
  | _ => false

/-- The entry stands for the holding of this lock: RUNNING, STOPPED or COUNTED_OUT (R139). -/
def holdingOf (k : LockId) : Lease → Bool
  | .running k' _ | .stopped k' _ | .countedOut k' => k' == k
  | .reserved _ _ _ | .reported _ => false

/-- A grant under a ticket starts the lease reserved under it (R141). -/
def startLease (t : TicketId) (s : State) : State :=
  { s with leases := s.leases.map fun l =>
      match l with
      | .reserved k u t' => if t' = t then .running k u else l
      | _ => l }

/-- A reservation ends without running (R141). -/
def cancelLease (t : TicketId) (s : State) : State :=
  { s with leases := s.leases.filter fun l => !reservedUnder t l }

/-- A RUNNING entry stopped, with units left within 1 and those it ran with (R139, R143; free value, log entry 7). -/
def stopEntry (k : LockId) (free : Nat) (l : Lease) : Lease :=
  match l with
  | .running k' u => if k' = k then .stopped k' (BitVec.ofNat 8 (1 + free % u.toNat)) else l
  | _ => l

/-- An accepted YIELD command stops the RUNNING lease of its lock (R143). -/
def stopLease (k : LockId) (s : State) : State :=
  if s.leases.any (runningFor k) then
    { s with leases := s.leases.map (stopEntry k (Config.unitsLeft s.freeCount)), freeCount := s.freeCount + 1 }
  else s

/-- The own YIELD of a lock is applied: the entry of that holding becomes FREE and the lock leaves the EXPIRE set (R145). -/
def endLease (k : LockId) (s : State) : State :=
  { s with leases := s.leases.filter (fun l => !holdingOf k l), expireSet := dropFrom s.expireSet k }

/-- A COUNTED_OUT entry of this lock becomes REPORTED. -/
def reportEntry (k : LockId) (l : Lease) : Lease :=
  match l with
  | .countedOut k' => if k' = k then .reported k' else l
  | _ => l

/-- The own EXPIRE of a lock is applied: its entry becomes REPORTED (R146) and the lock leaves the EXPIRE set (R144). -/
def reportLease (k : LockId) (s : State) : State :=
  { s with leases := s.leases.map (reportEntry k), expireSet := dropFrom s.expireSet k }

/-- A RUNNING entry of this lock becomes COUNTED_OUT. -/
def countOutEntry (k : LockId) (l : Lease) : Lease :=
  match l with
  | .running k' _ => if k' = k then .countedOut k' else l
  | _ => l

/-! ### Fault unit (chapter 10) -/

/-- The first-fault rule (R184). -/
def recordFault (kind : FaultKind) (sequence : Half) (sender : Option StationId) (s : State) : State :=
  match s.fault with
  | none => { s with fault := some { kind := kind, sequence := sequence, sender := sender } }
  | some _ => s

/-- One veto cast (R61, R185). -/
def countVetoCast (s : State) : State :=
  { s with counters := { s.counters with vetoesCast := saturate s.counters.vetoesCast 1 } }

/-- One own frame voided (R61, R185). -/
def countOwnVoided (s : State) : State :=
  { s with counters := { s.counters with ownVoided := saturate s.counters.ownVoided 1 } }

/-- One frame dropped at a limit (R68, R69, R70, R185). -/
def countDropped (s : State) : State :=
  { s with counters := { s.counters with framesDropped := saturate s.counters.framesDropped 1 } }

/-- `n` reads that corrected an error (R181, R185). -/
def countCorrected (n : Nat) (s : State) : State :=
  { s with counters := { s.counters with corrected := saturate s.counters.corrected n } }

/-- Words of the live replica's storage are read: the state after the corrections (R181). -/
def afterReads (words : List StoreWord) (s : State) : State :=
  let r := readWords words s.ecc
  countCorrected r.corrected { s with ecc := r.ecc }

/-- Every one of the words can be read (R182). -/
def readable (words : List StoreWord) (s : State) : Bool := (readWords words s.ecc).readable

/-! ### Leaving a group (R128 to R133, R178) -/

/-- An offered frame whose source is not cleared when the station leaves its group, halts or leaves a join: a STOP that is still
pending (R130). -/
def staysOffered (s : State) (o : Offer) : Bool := o.source == .stop && s.pendingStop.isSome

/-- The sources have been cleared: the choice made for the round is gone, and the outcome of a frame in flight will be
discarded (R74, R75, R130). -/
def dropOffers (s : State) : State :=
  { s with round := { s.round with
      chosen := s.round.chosen.filter (staysOffered s),
      inFlight := s.round.inFlight.map fun f => { f with discarded := f.discarded || !staysOffered s f.offer } } }

/-- What exclusion and entry to HALTED both clear: roster monitor, lease unit, entry engine, pending LEAVE, host transmit queue
with its counts, and every ticket (R128, R129, R178). -/
def clearLocal (s : State) : State :=
  { s with
    monitor := .stopped, leases := [], expireSet := noLocks, listening := .stopped, join := .none, declines := [],
    copy := none, copyRetry := .zero, pendingLeave := none, hostQueue := [], hostRetry := .zero, busyWait := none,
    tickets := Vector.replicate 16 none }

/-- The replica is cleared, every word of it written (R28, R50, R79). -/
def clearReplica (s : State) : State := { s with replica := .cleared, ecc := .sound }

/-- The notification queue emptied, then STATE_CHANGED, then NOTE_ARRIVED if a note is held (R129, R157, R178). -/
def restartRecords (c : StateChange) (s : State) : State :=
  { s with records := .stateChanged c :: (if s.inbound.isEmpty then [] else [.noteArrived]) }

/-- The reasons for which auto-rejoin applies (R131). -/
def permitsRejoin : ExclusionReason → Bool
  | .left | .duplicateId | .config => false
  | .stale | .missed | .soloVeto | .uncorrectable | .group | .evicted => true

/-- The auto-rejoin flag of the configuration. -/
def autoRejoin (s : State) : Bool := (s.config.map StartConfig.autoRejoin).getD false

/-- The stop-on-fault flag of the configuration. -/
def stopOnFault (s : State) : Bool := (s.config.map StartConfig.stopOnFault).getD false

/-- The life-cycle logic's part of an exclusion: state, reason, counts, rejoin timer and pending STOP (R129 to R133). -/
def setExcluded (r : ExclusionReason) (s : State) : State :=
  { s with
    life := .excluded, exclusionReason := some r, haltReason := none,
    round := { s.round with mismatches := 0, soloVetoes := 0 },
    rejoin := if autoRejoin s && permitsRejoin r then configBeats 2 s else none,
    pendingStop := if r = .duplicateId then none else s.pendingStop }

/-- The station excludes itself (R128 to R131). -/
def exclude (r : ExclusionReason) (s : State) : State :=
  dropOffers (restartRecords (.excluded r) (setExcluded r (clearReplica (clearLocal s))))

/-- A second cause of exclusion met in EXCLUDED (R132). -/
def changeReason (r : ExclusionReason) (s : State) : State :=
  addRecord (.stateChanged (.excluded r))
    { s with
      exclusionReason := some r,
      rejoin := if permitsRejoin r then s.rejoin else none,
      pendingStop := if r = .duplicateId then none else s.pendingStop }

/-- The life-cycle logic's part of entry to HALTED; `stop` is the STOP that stays pending (R136, R178). -/
def setHalted (reason : StopReason) (stop : Option StopReason) (s : State) : State :=
  { s with
    life := .halted, haltReason := some reason, exclusionReason := none, rejoin := none, pendingStop := stop }

/-- The station enters HALTED; the replica stays as it is, frozen (R136, R178). -/
def enterHalted (reason : StopReason) (stop : Option StopReason) (s : State) : State :=
  dropOffers (restartRecords (.halted reason) (setHalted reason stop (clearLocal s)))

/-- A read that found an uncorrectable error in MEMBER or during install; `sender` is that of the frame being applied (R182). -/
def storageFault (sender : Option StationId) (s : State) : State :=
  let s' := recordFault .uncorrectable (ownCount s) sender s
  if stopOnFault s then enterHalted .fault (some .fault) s' else exclude .uncorrectable s'

/-- Entry to LISTENING: quiet window started, candidate absent, backoff started after a failed join (R97). -/
def enterListening (failedJoin : Bool) (s : State) : State :=
  dropOffers
    { s with
      life := .listening, exclusionReason := none, haltReason := none, join := .none, pendingLeave := none,
      listening :=
        { quiet := configBeats 4 s, backoff := if failedJoin then configBeats 2 s else none, candidate := none } }

/-! ### The endings of a join (section 5.6) -/

/-- A failed or ended join: back to LISTENING with the backoff timer, unless the solo-veto limit has set the LEAVE pending, when
the station excludes itself (R66, R112, R115, R118; log entry 14). -/
def leaveJoin (s : State) : State :=
  if s.pendingLeave = some .soloVeto then exclude .soloVeto s else enterListening true s

/-- The ending of an aborted join (R66, R120, R121). -/
def takeEnding (s : State) : State :=
  if s.join.abort = some .left ∧ s.pendingLeave ≠ some .soloVeto then exclude .left s else leaveJoin s

/-- The LEAVE source is set pending; one set by the solo-veto limit stays (R66, R119). -/
def pendLeave (src : LeaveSource) (s : State) : State :=
  if s.pendingLeave = some .soloVeto then s else { s with pendingLeave := some src }

/-- An abort is set pending with its ending: the timers of the join stop and the catch-up queue is discarded (R113, R119, R121;
log entry 15). -/
def pendAbort (ending : Ending) (s : State) : State :=
  { s with join := { s.join with abort := some ending, joinTimer := none, stallTimer := none, catchUp := [] } }

/-- The joiner aborts its join on a fault (R119). -/
def abortJoin (kind : FaultKind) (sender : Option StationId) (s : State) : State :=
  let s' := recordFault kind (ownCount s) sender s
  if s.join.isOpen then pendLeave .abort (pendAbort .listening s') else leaveJoin s'

/-! ### Host transmit queue -/

/-- The ticket of a host frame. -/
def hostTicket : HostFrame → TicketId
  | .claim _ _ _ _ t | .yield _ t | .recall _ _ t | .note _ _ _ t => t

/-- The body of a host frame. -/
def hostBody : HostFrame → Body
  | .claim k m c f t => .claim k m c f t
  | .yield k t => .yield k t
  | .recall k target t => .recall k target t
  | .note d topic payload _ => .note d topic payload

/-- The head leaves the queue: its counts are set to 0 and a wait ends (R67, R70). -/
def popHead (s : State) : State :=
  { s with hostQueue := s.hostQueue.tail, hostRetry := .zero, busyWait := none }

/-- The head's ticket is in flight and its outcome is wanted. -/
def hostInFlight (t : TicketId) (s : State) : Bool :=
  match s.round.inFlight with
  | some f => f.offer.source == .host t && !f.discarded
  | none => false

/-- A NOTE at the head is looked up: it stays when its destination is FULL, is dropped with GONE when it is not, and the next
head is looked up in turn; an uncorrectable error is a storage fault (R150, R181, R183). -/
def lookupHeads : List HostFrame → State → State
  | .note dest _ _ t :: rest, s =>
    if readable [.roster] s then
      let s' := afterReads [.roster] s
      if s'.replica.roster[dest] = .full then s'
      else lookupHeads rest (makeRecord (.undelivered t dest .gone) (popHead s'))
    else storageFault none (afterReads [.roster] s)
  | _, s => s

/-- The new head of the host transmit queue is looked up if it is a NOTE (R150). -/
def lookupHead (s : State) : State := lookupHeads s.hostQueue s

/-- A frame joins the queue at its tail; a NOTE that becomes the head so is looked up (R150, R165, R167). -/
def appendHostFrame (f : HostFrame) (s : State) : State :=
  let s' := { s with hostQueue := s.hostQueue ++ [f] }
  if s.hostQueue.isEmpty then lookupHead s' else s'

end Sys2Proof.Machine
end

