-- ==== Sys2Proof/Machine/Wire.lean ====
section
/-!
DEFINITION. The byte layout of frames (section 12.1), the check word (R187), the encoder of the frames a station builds, and
the frame checker's test of a received frame: decoded when it is well-formed, refused otherwise (R34, R188).
-/

namespace Sys2Proof.Machine

/-! ### Bytes and fields -/

/-- A number as a byte. -/
def byteOf (n : Nat) : Byte := BitVec.ofNat 8 n

/-- The most significant byte of a two-byte field. -/
def hiByte (h : Half) : Byte := h.extractLsb' 8 8

/-- The least significant byte of a two-byte field. -/
def loByte (h : Half) : Byte := h.extractLsb' 0 8

/-- A two-byte field, most significant byte first (chapter 12). -/
def halfOf (hi lo : Byte) : Half := hi ++ lo

/-- Bits 7 to 4 as a number 0 to 15. -/
def hiNibble (b : Byte) : Fin 16 := (b.extractLsb' 4 4).toFin

/-- Bits 3 to 0 as a number 0 to 15. -/
def loNibble (b : Byte) : Fin 16 := (b.extractLsb' 0 4).toFin

/-- A byte of two numbers 0 to 15, the first in bits 7 to 4. -/
def nibbles (hi lo : Fin 16) : Byte := (BitVec.ofFin hi : BitVec 4) ++ (BitVec.ofFin lo : BitVec 4)

/-- A byte that must hold a number 0 to 15. -/
def smallOf (b : Byte) : Option (Fin 16) := if h : b.toNat < 16 then some ⟨b.toNat, h⟩ else none

/-- A byte that must hold a lock number (R188). -/
def lockOf (b : Byte) : Option LockId := if h : b.toNat < 64 then some ⟨b.toNat, h⟩ else none

/-- A byte with these eight bits, bit 7 first. -/
def bits8 (b7 b6 b5 b4 b3 b2 b1 b0 : Bool) : Byte :=
  BitVec.ofBool b7 ++ BitVec.ofBool b6 ++ BitVec.ofBool b5 ++ BitVec.ofBool b4 ++ BitVec.ofBool b3 ++ BitVec.ofBool b2
    ++ BitVec.ofBool b1 ++ BitVec.ofBool b0

/-! ### The check word (R187) -/

/-- One bit into the CRC register: generator x^16 + x^12 + x^5 + 1, most significant bit first, no reflection. -/
def crcBit (r : Half) (b : Bool) : Half := if r.getLsbD 15 != b then (r <<< 1) ^^^ 0x1021#16 else r <<< 1

/-- The bits of a byte, most significant first. -/
def bitsOf (b : Byte) : List Bool :=
  [b.getLsbD 7, b.getLsbD 6, b.getLsbD 5, b.getLsbD 4, b.getLsbD 3, b.getLsbD 2, b.getLsbD 1, b.getLsbD 0]

/-- The CRC register after these bytes, from the register given. -/
def crcFrom (r : Half) (bytes : List Byte) : Half := bytes.foldl (fun r b => (bitsOf b).foldl crcBit r) r

/-- The check word of these bytes: register preset to FFFFh, no final inversion (R187). -/
def checkWord (bytes : List Byte) : Half := crcFrom 0xFFFF#16 bytes

/-! ### Encodings of fields (section 12.1) -/

/-- Mode bit: 0 SOLE, 1 SHARED. -/
def modeBit : Mode → Bool
  | .sole => false
  | .shared => true

/-- The mode a bit stands for. -/
def modeOf (b : Bool) : Mode := if b then .shared else .sole

/-- Class bit: 0 STANDARD, 1 HIGH. -/
def classBit : ClaimClass → Bool
  | .standard => false
  | .high => true

/-- The class a bit stands for. -/
def classOf (b : Bool) : ClaimClass := if b then .high else .standard

/-- Form bit: 0 WAIT, 1 TRY. -/
def formBit : Form → Bool
  | .wait => false
  | .tryNow => true

/-- The form a bit stands for. -/
def formOf (b : Bool) : Form := if b then .tryNow else .wait

/-- Interval codes 00h to 04h. -/
def intervalCode : Interval → Byte
  | .ms4 => 0x00
  | .ms8 => 0x01
  | .ms16 => 0x02
  | .ms32 => 0x03
  | .ms64 => 0x04

/-- The interval a code stands for. -/
def intervalOf (b : Byte) : Option Interval :=
  match b.toNat with
  | 0 => some .ms4
  | 1 => some .ms8
  | 2 => some .ms16
  | 3 => some .ms32
  | 4 => some .ms64
  | _ => none

/-- Lock state codes 00h to 02h. -/
def lockStateCode : LockState → Byte
  | .free => 0x00
  | .sole => 0x01
  | .shared => 0x02

/-- The lock state a code stands for. -/
def lockStateFrom (b : Byte) : Option LockState :=
  match b.toNat with
  | 0 => some .free
  | 1 => some .sole
  | 2 => some .shared
  | _ => none

/-- Roster values: two bits per ID. -/
def rosterCode : RosterState → BitVec 2
  | .absent => 0
  | .pending => 1
  | .full => 2

/-- The roster state a value stands for; 3 is none (R188). -/
def rosterFrom (v : BitVec 2) : Option RosterState :=
  match v.toNat with
  | 0 => some .absent
  | 1 => some .pending
  | 2 => some .full
  | _ => none

/-- One roster byte: four IDs, the lowest in bits 7 and 6. -/
def rosterByte (a b c d : RosterState) : Byte := rosterCode a ++ rosterCode b ++ rosterCode c ++ rosterCode d

/-- The four roster bytes of a roster. -/
def rosterBytes (r : Roster) : List Byte :=
  [rosterByte r[0] r[1] r[2] r[3], rosterByte r[4] r[5] r[6] r[7], rosterByte r[8] r[9] r[10] r[11],
   rosterByte r[12] r[13] r[14] r[15]]

/-- The roster value at two bits of a byte, place 0 in bits 7 and 6. -/
def rosterAt (b : Byte) (place : Nat) : Option RosterState := rosterFrom (b.extractLsb' (6 - 2 * place) 2)

/-- The four roster states of a byte. -/
def fourStates (b : Byte) : Option (List RosterState) :=
  match rosterAt b 0, rosterAt b 1, rosterAt b 2, rosterAt b 3 with
  | some w, some x, some y, some z => some [w, x, y, z]
  | _, _, _, _ => none

/-- A roster from its four bytes; none where a value is 3 (R188). -/
def rosterOfBytes (b0 b1 b2 b3 : Byte) : Option Roster :=
  match fourStates b0, fourStates b1, fourStates b2, fourStates b3 with
  | some l0, some l1, some l2, some l3 =>
    let l := l0 ++ l1 ++ l2 ++ l3
    some (Vector.ofFn fun i : Fin 16 => (l[i.val]?).getD .absent)
  | _, _, _, _ => none

/-- The holder set as a 16-bit value: bit n is 1 when ID n is a holder. -/
def holderBits (v : IdSet) : Half :=
  bits8 v[15] v[14] v[13] v[12] v[11] v[10] v[9] v[8] ++ bits8 v[7] v[6] v[5] v[4] v[3] v[2] v[1] v[0]

/-- The holder set a 16-bit value stands for. -/
def holdersOf (h : Half) : IdSet := Vector.ofFn fun i : Fin 16 => h.getLsbD i.val

/-- Decline reasons 00h and 01h. -/
def declineCode : DeclineReason → Byte
  | .joinBusy => 0x00
  | .config => 0x01

/-- The decline reason a code stands for. -/
def declineOf (b : Byte) : Option DeclineReason :=
  match b.toNat with
  | 0 => some .joinBusy
  | 1 => some .config
  | _ => none

/-- Stop reasons 00h and 01h. -/
def stopCode : StopReason → Byte
  | .host => 0x00
  | .fault => 0x01

/-- The stop reason a code stands for. -/
def stopOf (b : Byte) : Option StopReason :=
  match b.toNat with
  | 0 => some .host
  | 1 => some .fault
  | _ => none

/-- The claim flags of a CLAIM frame: mode, class, form, a 0, and the ticket. -/
def claimFlags (m : Mode) (c : ClaimClass) (f : Form) (t : TicketId) : Byte :=
  BitVec.ofBool (modeBit m) ++ BitVec.ofBool (classBit c) ++ BitVec.ofBool (formBit f) ++ BitVec.ofBool false
    ++ (BitVec.ofFin t : BitVec 4)

/-- The first byte of a queue entry: station, mode, class and two bits 0. -/
def entryByte (e : ClaimEntry) : Byte :=
  (BitVec.ofFin e.station : BitVec 4) ++ BitVec.ofBool (modeBit e.mode) ++ BitVec.ofBool (classBit e.cls) ++ 0#2

/-- The two bytes of a queue entry in a COPY_LOCK. -/
def entryBytes (e : ClaimEntry) : List Byte := [entryByte e, byteOf e.ticket.val]

/-- A queue from its bytes, two for each entry. -/
def entriesOfBytes : List Byte → Option (List ClaimEntry)
  | [] => some []
  | [_] => none
  | a :: b :: rest =>
    match smallOf b, entriesOfBytes rest with
    | some t, some q =>
      if a.extractLsb' 0 2 == 0#2 then
        some ({ station := hiNibble a, mode := modeOf (a.getLsbD 3), cls := classOf (a.getLsbD 2), ticket := t } :: q)
      else none
    | _, _ => none

/-! ### Bodies -/

/-- The kind codes (section 12.1). -/
def kindCode : Body → Byte
  | .claim _ _ _ _ _ => 0x01
  | .yield _ _ => 0x02
  | .recall _ _ _ => 0x03
  | .expire _ => 0x04
  | .entry _ => 0x05
  | .leave => 0x06
  | .evict _ => 0x07
  | .beacon _ => 0x08
  | .decline _ _ => 0x09
  | .copyRoster _ _ => 0x0A
  | .copyLock _ _ => 0x0B
  | .note _ _ _ => 0x0C
  | .stop _ => 0x0D
  | .admission _ _ => 0x0E

/-- The body bytes of a kind (section 12.1). -/
def bodyBytes : Body → List Byte
  | .claim k m c f t => [byteOf k.val, claimFlags m c f t]
  | .yield k t => [byteOf k.val, byteOf t.val]
  | .recall k target t => [byteOf k.val, nibbles target t]
  | .expire k => [byteOf k.val]
  | .entry i => [intervalCode i]
  | .leave => []
  | .evict x => [byteOf x.val]
  | .beacon i => [intervalCode i]
  | .decline j r => [byteOf j.val, declineCode r]
  | .copyRoster j c => byteOf j.val :: rosterBytes c.roster ++ [intervalCode c.interval, hiByte c.cut, loByte c.cut]
  | .copyLock k r =>
    [byteOf k.val, lockStateCode r.state, hiByte (holderBits r.holders), loByte (holderBits r.holders), r.generation,
     byteOf r.queue.length] ++ r.queue.flatMap entryBytes
  | .note d topic payload => [byteOf d.val, byteOf topic.val, byteOf payload.length] ++ payload
  | .stop r => [stopCode r]
  | .admission j n => [byteOf j.val, byteOf n]

/-- The body of a COPY_LOCK from its bytes. -/
def copyLockOf (k s h1 h0 g n : Byte) (rest : List Byte) : Option Body :=
  match lockOf k, lockStateFrom s, entriesOfBytes rest with
  | some k, some s, some q =>
    if n.toNat ≤ 15 ∧ q.length = n.toNat then
      some (.copyLock k { state := s, holders := holdersOf (halfOf h1 h0), queue := q, generation := g })
    else none
  | _, _, _ => none

/-- The body of a COPY_ROSTER from its bytes. -/
def copyRosterOf (j r0 r1 r2 r3 i c1 c0 : Byte) : Option Body :=
  match smallOf j, rosterOfBytes r0 r1 r2 r3, intervalOf i with
  | some j, some r, some i => some (.copyRoster j { roster := r, interval := i, cut := halfOf c1 c0 })
  | _, _, _ => none

/-- The body of a NOTE from its bytes. -/
def noteOf (d topic n : Byte) (payload : List Byte) : Option Body :=
  match smallOf d, smallOf topic with
  | some d, some topic => if n.toNat ≤ 16 ∧ payload.length = n.toNat then some (.note d topic payload) else none
  | _, _ => none

/-- The body a kind code and body bytes stand for; none where the code, the length or a field is outside the tables
(R34, R188). -/
def bodyOf (kind : Byte) (bytes : List Byte) : Option Body :=
  match kind.toNat, bytes with
  | 0x01, [k, b] =>
    (lockOf k).bind fun k =>
      if b.getLsbD 4 then none
      else some (.claim k (modeOf (b.getLsbD 7)) (classOf (b.getLsbD 6)) (formOf (b.getLsbD 5)) (loNibble b))
  | 0x02, [k, t] => (lockOf k).bind fun k => (smallOf t).map fun t => .yield k t
  | 0x03, [k, b] => (lockOf k).map fun k => .recall k (hiNibble b) (loNibble b)
  | 0x04, [k] => (lockOf k).map .expire
  | 0x05, [i] => (intervalOf i).map .entry
  | 0x06, [] => some .leave
  | 0x07, [x] => (smallOf x).map .evict
  | 0x08, [i] => (intervalOf i).map .beacon
  | 0x09, [j, r] => (smallOf j).bind fun j => (declineOf r).map fun r => .decline j r
  | 0x0A, [j, r0, r1, r2, r3, i, c1, c0] => copyRosterOf j r0 r1 r2 r3 i c1 c0
  | 0x0B, k :: s :: h1 :: h0 :: g :: n :: rest => copyLockOf k s h1 h0 g n rest
  | 0x0C, d :: topic :: n :: payload => noteOf d topic n payload
  | 0x0D, [r] => (stopOf r).map .stop
  | 0x0E, [j, n] => (smallOf j).bind fun j => if n.toNat ≤ 64 then some (.admission j n.toNat) else none
  | _, _ => none

/-! ### Well-formedness beyond the layout (R34) -/

/-- The state and the holder set of a lock agree (R2). -/
def stateAgrees (r : LockRecord) : Bool :=
  match r.state with
  | .free => isEmptySet r.holders
  | .sole => (allIds.filter (has r.holders)).length == 1
  | .shared => !isEmptySet r.holders

/-- No STANDARD entry stands before a HIGH entry (R7). -/
def highFirst : List ClaimEntry → Bool
  | [] => true
  | e :: rest => (e.cls == .high || rest.all fun x => x.cls == .standard) && highFirst rest

/-- No station has two entries in the queue (R8). -/
def stationsDistinct : List ClaimEntry → Bool
  | [] => true
  | e :: rest => (rest.all fun x => x.station != e.station) && stationsDistinct rest

/-- A lock record obeys R2, R7 and R8: what R34 asks of a COPY_LOCK. -/
def lawfulLock (r : LockRecord) : Bool :=
  stateAgrees r && highFirst r.queue && stationsDistinct r.queue && r.queue.all fun e => !has r.holders e.station

/-- At most one roster state is PENDING (R34). -/
def atMostOnePending (r : Roster) : Bool := (allIds.filter fun i => r[i] == .pending).length ≤ 1

/-- The conditions of R34 on a frame whose layout is right; the lengths are those the layout can carry. -/
def frameChecks (f : Frame) : Bool :=
  match f.body with
  | .note dest _ payload => dest != f.sender && payload.length ≤ 16
  | .copyLock _ r => lawfulLock r && r.queue.length ≤ 15
  | .copyRoster _ c => atMostOnePending c.roster
  | .admission _ n => n ≤ 64
  | _ => true

/-! ### Whole frames -/

/-- The header and body bytes of a frame (section 12.1). -/
def plainBytes (f : Frame) : List Byte :=
  [nibbles f.tag.founder f.sender, f.tag.count, kindCode f.body, hiByte f.sequence, loByte f.sequence] ++ bodyBytes f.body

/-- The bytes of a frame as transmitted, check word last (R187). -/
def frameBytes (f : Frame) : List Byte :=
  plainBytes f ++ [hiByte (checkWord (plainBytes f)), loByte (checkWord (plainBytes f))]

/-- The frame a run of bytes stands for, when it is well-formed (R34, R187, R188); none otherwise, and for no bytes at all. -/
def frameOf (bytes : List Byte) : Option Frame :=
  match bytes with
  | b0 :: b1 :: b2 :: b3 :: b4 :: rest =>
    if rest.length < 2 ∨ checkWord bytes ≠ 0 then none
    else
      match bodyOf b2 (rest.take (rest.length - 2)) with
      | none => none
      | some body =>
        let f : Frame :=
          { tag := { founder := hiNibble b0, count := b1 }, sender := loNibble b0, sequence := halfOf b3 b4, body := body }
        if frameChecks f then some f else none
  | _ => none

end Sys2Proof.Machine
end

