-- ==== Sys2Proof/Machine/Rounds.lean ====
section
/-!
DEFINITION. The round up to its verdict mark (chapter 3): starts, the outbound selector, request windows, the winner, the start
of transmission, and what the station finds in the frame part.
-/

namespace Sys2Proof.Machine

/-! ### The outbound selector (R72, R73) -/

/-- The frame of a copy, built from the shadow (R107). -/
def copyBody (c : CopyState) : CopyFrame → Body
  | .roster =>
    .copyRoster c.joiner
      { roster := c.shadow.roster, interval := c.shadow.interval.getD .ms4, cut := c.shadow.sequence }
  | .lock k => .copyLock k c.shadow.locks[k]
  | .admission n => .admission c.joiner n

/-- Order 1: a STOP is pending. -/
def stopOffer (s : State) : Option Offer := s.pendingStop.map fun r => { source := .stop, body := .stop r }

/-- Order 2: a LEAVE is pending. -/
def leaveOffer (s : State) : Option Offer := s.pendingLeave.map fun _ => { source := .leave, body := .leave }

/-- Order 3: the lowest ID of the pending-evict set. -/
def evictOffer (s : State) : Option Offer :=
  (lowest s.monitor.pendingEvict).map fun x => { source := .evict, body := .evict x }

/-- Order 4: the lowest lock of the EXPIRE set. -/
def expireOffer (s : State) : Option Offer :=
  (lowest s.expireSet).map fun k => { source := .expire, body := .expire k }

/-- Order 5: the pending ENTRY, with the station's own START interval (R112). -/
def entryOffer (s : State) : Option Offer :=
  if s.join.entryPending then some { source := .entry, body := .entry (configInterval s) } else none

/-- Order 6: the oldest DECLINE. -/
def declineOffer (s : State) : Option Offer :=
  s.declines.head?.map fun d => { source := .decline, body := .decline d.joiner d.reason }

/-- Order 7: the copy cursor's next frame. -/
def copyOffer (s : State) : Option Offer :=
  s.copy.bind fun c => c.frames.head?.map fun f => { source := .copy, body := copyBody c f }

/-- Order 8: the head of the host transmit queue, unless it waits after BUSY (R70). -/
def hostOffer (s : State) : Option Offer :=
  if s.busyWait.isSome then none
  else s.hostQueue.head?.map fun f => { source := .host (hostTicket f), body := hostBody f }

/-- Order 9: a due BEACON, with the group beacon interval (R81). -/
def beaconOffer (s : State) : Option Offer :=
  if s.monitor.beaconDue then some { source := .beacon, body := .beacon (ownInterval s) } else none

/-- The selector's choice: the first source present that the station's state allows (R72). In HALTED only the own STOP after a
fatal fault (R179). -/
def selectOffer (s : State) : Option Offer :=
  match s.life with
  | .member =>
    (stopOffer s).or ((leaveOffer s).or ((evictOffer s).or ((expireOffer s).or ((entryOffer s).or
      ((declineOffer s).or ((copyOffer s).or ((hostOffer s).or (beaconOffer s))))))))
  | .entering | .copying => (stopOffer s).or ((leaveOffer s).or (entryOffer s))
  | .listening | .excluded => stopOffer s
  | .halted => if s.pendingStop = some .fault then stopOffer s else none
  | .off => none

/-- The request mark a chosen frame gets (R73). -/
def markFor (o : Offer) : RequestMark :=
  match o.body with
  | .stop _ | .leave | .evict _ | .expire _ | .yield _ _ | .recall _ _ _ => .expedited
  | .claim _ _ _ _ _ | .entry _ | .beacon _ | .decline _ _ | .copyRoster _ _ | .copyLock _ _ | .note _ _ _ | .admission _ _ =>
    .ordinary

/-! ### Starts of a round (R53, R59) -/

/-- The station starts a round from an idle bus when it has a frame to offer, with a known or an unknown pointer as the row
says. -/
def startRound (known : Bool) (s : State) : State :=
  if s.round.phase = .idle ∧ (selectOffer s).isSome ∧ s.round.pointer.isSome = known then
    { s with round := { s.round with phase := .started } }
  else s

/-! ### The request window (R55, R56, R72, R74) -/

/-- A request window may open here: the station is not in OFF and is in no later part of a round (R53, R54). -/
def mayOpen (s : State) : Bool :=
  s.life != .off && (s.round.phase == .idle || s.round.phase == .started || s.round.phase == .between)

/-- The choice is made, and the request mark placed if the pointer is known (R55, R74). -/
def placeRequest (s : State) : State :=
  let o := selectOffer s
  { s with round := { s.round with
      phase := .request, chosen := o, won := false, reception := none,
      requestMark := if s.round.pointer.isSome then o.map markFor else none } }

/-- The storage words the chosen copy frame is built from; none when another frame, or none, was chosen (R181). -/
def buildReads (s : State) : List StoreWord :=
  match s.round.chosen, s.copy with
  | some o, some c =>
    if o.source = .copy then
      match c.frames with
      | f :: _ => copyReads f
      | [] => []
    else []
  | _, _ => []

/-- Words of the shadow are read when a copy frame is built; the corrections are kept with the shadow (R181). -/
def afterShadowReads (words : List StoreWord) (s : State) : State :=
  match s.copy with
  | some c =>
    let r := readWords words c.ecc
    countCorrected r.corrected { s with copy := some { c with ecc := r.ecc } }
  | none => s

/-- Every word of the shadow that is read can be read. -/
def shadowReadable (words : List StoreWord) (s : State) : Bool :=
  match s.copy with
  | some c => (readWords words c.ecc).readable
  | none => true

/-- A chosen copy frame is built from the shadow; where it cannot be, the fault action is taken and the frame is not built
(R181, R183). The mark already placed stands (log entry 18). -/
def buildChosen (s : State) : State :=
  let words := buildReads s
  let s' := afterShadowReads words s
  if shadowReadable words s then s'
  else storageFault none { s' with round := { s'.round with chosen := none } }

/-- A request window opens (R55, R72, R74). -/
def openRequestWindow (s : State) : State := if mayOpen s then buildChosen (placeRequest s) else s

/-- The window closed with no request mark: pointer 0 and known, bus idle (R53). -/
def closeEmptyWindow (s : State) : State :=
  if s.round.phase = .request then
    { s with round := { s.round with
        phase := .idle, pointer := some 0, chosen := none, requestMark := none, won := false } }
  else s

/-- The IDs counted upward from one, wrapping from 15 to 0 (R56). -/
def countFrom (p : StationId) : List StationId := allIds.map fun i => p + i

/-- The winner of a request window: the first EXPEDITED slot, else the first ORDINARY slot, in the count from the pointer
(R56). -/
def winner (p : StationId) (slots : RequestSlots) : Option StationId :=
  ((countFrom p).find? fun i => slots[i] == .expedited).or ((countFrom p).find? fun i => slots[i] == .ordinary)

/-- The group tag in the header of a transmitted frame (R42). -/
def headerTag (s : State) : GroupTag :=
  let own : GroupTag := { founder := self s, count := s.foundingCount }
  match s.life with
  | .member => s.replica.tag.getD own
  | .entering | .copying => s.join.target.getD own
  | .off | .listening | .excluded | .halted => own

/-- The sequence in the header of a transmitted frame (R42). -/
def headerSequence (body : Body) (s : State) : Half :=
  match s.life with
  | .member => s.replica.sequence
  | .entering | .copying =>
    match body with
    | .entry _ => 0
    | _ => s.join.tracked.getD 0
  | .off | .listening | .excluded | .halted => 0

/-- The frame transmitted for an offer (R42, R57). -/
def frameFor (o : Offer) (s : State) : Frame :=
  { tag := headerTag s, sender := self s, sequence := headerSequence o.body s, body := o.body }

/-- The chosen frame is still at its source (R74). -/
def stillOffered (o : Offer) (s : State) : Bool :=
  match o.source with
  | .stop => s.pendingStop.isSome
  | .leave => s.pendingLeave.isSome
  | .evict => (match o.body with | .evict x => has s.monitor.pendingEvict x | _ => false)
  | .expire => (match o.body with | .expire k => has s.expireSet k | _ => false)
  | .entry => s.join.entryPending
  | .decline => (match o.body with | .decline j r => s.declines.contains { joiner := j, reason := r } | _ => false)
  | .copy => s.copy.isSome
  | .host t => (s.hostQueue.head?.map fun f => hostTicket f == t).getD false
  | .beacon => s.monitor.beaconDue

/-- The frame the station transmits when it has won (R57, R74). -/
def transmission (s : State) : Option InFlight :=
  match s.round.chosen with
  | some o =>
    if stillOffered o s then
      some { offer := o, frame := frameFor o s, bytes := frameBytes (frameFor o s), discarded := false }
    else none
  | none => none

/-- At least one slot of the request window holds a request mark (R53). -/
def anyRequest (slots : RequestSlots) : Bool := allIds.any fun i => slots[i] != .empty

/-- This station computes itself as the winner (R56). -/
def wins (slots : RequestSlots) (s : State) : Bool :=
  match s.round.pointer with
  | some p => winner p slots == some (self s)
  | none => false

/-- The window closed with a request mark: the winner is computed and, if it is this station, transmission starts
(R56, R57). -/
def closeRequestWindow (slots : RequestSlots) (s : State) : State :=
  if s.round.phase = .request then
    if anyRequest slots then
      { s with round := { s.round with
          phase := .frame, won := wins slots s, inFlight := if wins slots s then transmission s else none } }
    else closeEmptyWindow s
  else s

/-! ### The frame part (R34, R35, R62, R64) -/

/-- A frame bears another group's tag at this station; a station without a group finds none foreign (R46). -/
def foreign (f : Frame) (s : State) : Bool :=
  match s.life with
  | .member => s.replica.tag != some f.tag
  | .entering | .copying => s.join.target != some f.tag
  | .off | .listening | .excluded | .halted => false

/-- The kinds whose sequence is compared (R43). -/
def comparedKind : Body → Bool
  | .entry _ | .stop _ => false
  | _ => true

/-- The mark of a NOTE's destination (R152). -/
def noteMark (s : State) : VerdictMark :=
  if s.life = .member ∧ s.inbound.length < Config.inboundSize then .taken else .busy

/-- Lines 4 to 7 of R35 for a well-formed frame another station sent. -/
def markReceived (f : Frame) (s : State) : Option VerdictMark :=
  let checked := s.life = .member ∧ !foreign f s ∧ comparedKind f.body
  if checked ∧ standing f.sequence s.replica.sequence = .behind then some .stale
  else if checked ∧ standing f.sequence s.replica.sequence = .ahead then none
  else
    match f.body with
    | .note dest _ _ => if dest = self s ∧ !foreign f s then some (noteMark s) else none
    | _ => none

/-- The mark of R35: none in OFF and HALTED; VETO on line 2 unless suppressed (R66); VETO on line 3; lines 4 to 7 for a frame of
another station; none for the own frame read back whole (R60). -/
def verdictMark (frame : Option Frame) (mismatch duplicate transmitted : Bool) (s : State) : Option VerdictMark :=
  if s.life = .off ∨ s.life = .halted then none
  else
    match frame with
    | none => if s.round.suppressed ∧ !mismatch then none else some .veto
    | some f => if mismatch || duplicate then some .veto else if transmitted then none else markReceived f s

/-- A well-formed frame with this station's ID in a round the station did not transmit in (R64). -/
def bearsOwnId (frame : Option Frame) (s : State) : Bool :=
  match frame with
  | some f => f.sender == self s
  | none => false

/-- The station transmitted and the line did not match (R62). -/
def readbackFails (line : List Byte) (s : State) : Bool :=
  match s.round.inFlight with
  | some f => line != f.bytes
  | none => false

/-- The readback-mismatch count after the frame part (R62). -/
def mismatchesAfter (line : List Byte) (s : State) : Nat :=
  if s.round.inFlight.isSome then (if readbackFails line s then s.round.mismatches + 1 else 0) else s.round.mismatches

/-- What the station finds in the frame part. A frame with the own ID is no duplicate in HALTED, where R64 does not apply, so it
moves the pointer there like any clean frame (R58, R64, R179; log entry 42). -/
def receptionOf (line : List Byte) (s : State) : Reception :=
  let frame := frameOf line
  let mismatch := readbackFails line s
  let duplicate := !s.round.inFlight.isSome && bearsOwnId frame s && s.life != .halted
  let mark := verdictMark frame mismatch duplicate s.round.inFlight.isSome s
  { carried := !line.isEmpty, frame := frame, vetoLine2 := frame.isNone && mark == some .veto && !s.round.suppressed,
    mismatch := mismatch, mismatchReached := mismatch && s.round.mismatches + 1 == Config.mismatchLimit,
    duplicate := duplicate, halted := s.life == .halted, mark := mark }

/-- The frame part ends: the station checks or reads back what stood on the line, and places its mark (R35). -/
def receiveFrame (line : List Byte) (s : State) : State :=
  if s.round.phase = .frame then
    { s with round := { s.round with
        phase := .verdict, reception := some (receptionOf line s), mismatches := mismatchesAfter line s } }
  else s

/-! ### The meanings of the rows -/

/-- ROUND_START (R53). -/
def execRoundStart (s : State) : Host.Outcome State Fault Refusal := .next (startRound true s)

/-- RESYNCHRONIZING_START (R59). -/
def execResynchronizingStart (s : State) : Host.Outcome State Fault Refusal := .next (startRound false s)

/-- REQUEST_WINDOW_OPEN (R72). -/
def execRequestWindowOpen (s : State) : Host.Outcome State Fault Refusal := .next (openRequestWindow s)

/-- REQUEST_WINDOW_CLOSE (R56). -/
def execRequestWindowClose (slots : RequestSlots) (s : State) : Host.Outcome State Fault Refusal :=
  .next (closeRequestWindow slots s)

/-- EMPTY_REQUEST_WINDOW (R53). -/
def execEmptyRequestWindow (s : State) : Host.Outcome State Fault Refusal := .next (closeEmptyWindow s)

/-- FRAME_RECEIVED (R35). -/
def execFrameReceived (line : List Byte) (s : State) : Host.Outcome State Fault Refusal := .next (receiveFrame line s)

end Sys2Proof.Machine
end

