-- ==== Sys2Proof/Machine/Close.lean ====
section
/-!
DEFINITION. The close of a verdict window (R61): pointer, counters, the outcome at the frame's source, the limits, and the
handing on of an accepted frame to the member, the joiner, the listener and the life-cycle logic (chapters 2 to 5, 8 and 10).
-/

namespace Sys2Proof.Machine

/-! ### Step 1: the rotation pointer (R58) -/

/-- The pointer after the close. A clean frame this station could not read leaves a free value (log entry 8). -/
def closePointer (r : Reception) (slots : VerdictSlots) (s : State) : State :=
  if !r.carried || r.mismatch || r.duplicate then { s with round := { s.round with pointer := none } }
  else if !clean slots then s
  else
    match r.frame with
    | some f => { s with round := { s.round with pointer := some (f.sender + 1) } }
    | none =>
      { s with round := { s.round with pointer := Config.unreadPointer s.freeCount }, freeCount := s.freeCount + 1 }

/-! ### Step 2 and the solo-veto count (R61, R65) -/

/-- The vetoes-cast counter (R61). -/
def closeVetoes (r : Reception) (s : State) : State := if r.mark = some .veto then countVetoCast s else s

/-- The station won the round and transmitted nothing (R74). -/
def wonSilently (s : State) : Bool := s.round.won && !s.round.inFlight.isSome

/-- The solo-veto count after the close (R65): a VETO of line 2 counts when no other slot holds one, clears the count when one
does, and leaves it in a round won in silence, whatever the other slots hold; a frame received whole clears it, unless the
station vetoed it on line 3 or was in HALTED as it received it (log entry 10). What the station did in the window decides, not
its state at the close. -/
def soloVetoesAfter (r : Reception) (slots : VerdictSlots) (s : State) : Nat :=
  if r.vetoLine2 then
    if wonSilently s then s.round.soloVetoes
    else if vetoedByOthers slots (self s) then 0
    else s.round.soloVetoes + 1
  else if r.frame.isSome && !r.mismatch && !r.duplicate && !r.halted then 0
  else s.round.soloVetoes

/-- The count reaches its limit at this close (R66). -/
def soloVetoReached (r : Reception) (slots : VerdictSlots) (s : State) : Bool :=
  soloVetoesAfter r slots s == Config.soloVetoLimit && s.round.soloVetoes != Config.soloVetoLimit

/-- The solo-veto count is updated (R65). -/
def closeSoloVetoes (r : Reception) (slots : VerdictSlots) (s : State) : State :=
  { s with round := { s.round with soloVetoes := soloVetoesAfter r slots s } }

/-! ### Step 3: the own frame's outcome (R40, R61, R67 to R71) -/

/-- The own ENTRY is accepted: join open, join timer, catch-up begun, tracked count raised; a LEAVE command taken while it was in
flight now sets the LEAVE pending (R42, R112, R121). -/
def entryAccepted (s : State) : State :=
  let s' := { s with join := { s.join with
    entryPending := false, isOpen := true, joinTimer := configBeats 4 s, catchUp := [], catchUpCount := 0,
    tracked := s.join.tracked.map (· + 1), leaveAtEntryClose := false } }
  if s.join.leaveAtEntryClose then pendLeave .abort (pendAbort .left s') else s'

/-- The own LEAVE is accepted, or ends at its close whatever the verdict (R66, R94, R120). -/
def leaveEnds (s : State) : State :=
  match s.life with
  | .entering | .copying => takeEnding s
  | _ => if s.pendingLeave = some .soloVeto then exclude .soloVeto s else exclude .left s

/-- A copy frame leaves the cursor; the copy is complete when none is left (R107, R109). -/
def advanceCopy (s : State) : State :=
  match s.copy with
  | some c =>
    { s with
      copy := if c.frames.tail.isEmpty then none else some { c with frames := c.frames.tail },
      copyRetry := .zero }
  | none => s

/-- An accepted host frame leaves the queue; a NOTE ends in DELIVERED; the new head is looked up, its record after DELIVERED (R150,
R154, R167; log entry 37). -/
def hostAccepted (s : State) : State :=
  match s.hostQueue with
  | .note dest _ _ t :: _ => lookupHead (makeRecord (.delivered t dest) (popHead s))
  | _ :: _ => lookupHead (popHead s)
  | [] => s

/-- The accepted frame leaves its source (R40). -/
def sourceAccepted (o : Offer) (s : State) : State :=
  match o.source with
  | .stop => { s with pendingStop := none }
  | .leave => leaveEnds s
  | .evict =>
    match o.body with
    | .evict x => { s with monitor := { s.monitor with pendingEvict := dropFrom s.monitor.pendingEvict x } }
    | _ => s
  | .expire =>
    match o.body with
    | .expire k => { s with expireSet := dropFrom s.expireSet k }
    | _ => s
  | .entry => entryAccepted s
  | .decline => { s with declines := s.declines.tail }
  | .copy => advanceCopy s
  | .host _ => hostAccepted s
  | .beacon => s

/-- The record of a host frame dropped at the attempt limit; the reason of a NOTE is the class of the void that reached the
limit (R68). -/
def limitRecord (f : HostFrame) (reason : Undelivered) : Record :=
  match f with
  | .claim k _ _ _ t => .failed t k
  | .yield k t => .failed t k
  | .recall k _ t => .failed t k
  | .note d _ _ t => .undelivered t d reason

/-- The reservation of a dropped CLAIM ends (R141, R147). -/
def cancelForDrop (f : HostFrame) (s : State) : State :=
  match f with
  | .claim _ _ _ _ t => cancelLease t s
  | _ => s

/-- The head is dropped at a limit: counter, record, reservation, and the next head looked up, its record after the drop's (R68,
R70, R150; log entry 37). -/
def dropHead (f : HostFrame) (reason : Undelivered) (s : State) : State :=
  lookupHead (makeRecord (limitRecord f reason) (cancelForDrop f (popHead (countDropped s))))

/-- The reason of an UNDELIVERED at the attempt limit (R68). -/
def attemptReason : VoidClass → Undelivered
  | .noAnswer => .noAnswer
  | _ => .vetoLimit

/-- One more attempt of the head; dropped when the count reaches the limit (R67, R68). -/
def hostAttempt (f : HostFrame) (c : VoidClass) (s : State) : State :=
  if Config.attemptLimit ≤ s.hostRetry.attempts + 1 then dropHead f (attemptReason c) s
  else { s with hostRetry := { s.hostRetry with attempts := s.hostRetry.attempts + 1 } }

/-- One more BUSY answer to the head: it waits for B, or is dropped when the count reaches the limit (R70). -/
def hostBusy (f : HostFrame) (s : State) : State :=
  if Config.busyLimit ≤ s.hostRetry.busy + 1 then dropHead f .busyLimit s
  else
    { s with hostRetry := { s.hostRetry with busy := s.hostRetry.busy + 1 }, busyWait := groupBeats 1 s }

/-- The retry rules of a void host frame (R67). -/
def hostRetried (f : HostFrame) (c : VoidClass) (s : State) : State :=
  match c with
  | .veto | .noAnswer => hostAttempt f c s
  | .busy => hostBusy f s
  | .stale => s

/-- A void NOTE whose destination is no longer FULL is dropped with GONE instead of being retried, and the new head is looked up
after it (R150, R151; log entry 37). -/
def noteVoided (f : HostFrame) (dest : StationId) (t : TicketId) (c : VoidClass) (s : State) : State :=
  let s' := afterReads [.roster] s
  if !readable [.roster] s then storageFault none s'
  else if s'.replica.roster[dest] = .full then hostRetried f c s'
  else lookupHead (makeRecord (.undelivered t dest .gone) (popHead s'))

/-- A void host frame returns to the head (R67, R151). -/
def hostVoided (c : VoidClass) (s : State) : State :=
  match s.hostQueue with
  | .note dest topic payload t :: _ => noteVoided (.note dest topic payload t) dest t c s
  | f :: _ => hostRetried f c s
  | [] => s

/-- A copy frame is dropped at the attempt limit; a dropped ADMIT ends the copy and puts the joiner in the pending-evict set
(R69, R109). -/
def dropCopyFrame (s : State) : State :=
  match s.copy with
  | some c =>
    if c.frames.tail.isEmpty then
      countDropped { s with
        copy := none, copyRetry := .zero,
        monitor := { s.monitor with pendingEvict := addTo s.monitor.pendingEvict c.joiner } }
    else countDropped (advanceCopy s)
  | none => s

/-- A void copy frame is retried up to the limit; only class VETO counts (R67, R69). -/
def copyVoided (c : VoidClass) (s : State) : State :=
  if c = .veto then
    if Config.attemptLimit ≤ s.copyRetry.attempts + 1 then dropCopyFrame s
    else { s with copyRetry := { s.copyRetry with attempts := s.copyRetry.attempts + 1 } }
  else s

/-- The void frame returns to its source (R40, R67, R71). A LEAVE of the solo-veto limit ends at its close, and an ENTRY that a
LEAVE command waits on is withdrawn, unless a STALE mark decides the close (R66, R94, R121; log entry 13). -/
def sourceVoided (o : Offer) (c : VoidClass) (stale : Bool) (s : State) : State :=
  match o.source with
  | .host _ => hostVoided c s
  | .copy => copyVoided c s
  | .leave => if !stale ∧ s.pendingLeave = some .soloVeto then exclude .soloVeto s else s
  | .entry => if !stale ∧ s.join.leaveAtEntryClose then exclude .left s else s
  | .stop | .evict | .expire | .decline | .beacon => s

/-- A void frame adds one to the own-frames-voided counter, whatever the class (R61). -/
def countIfVoid (v : Verdict) (s : State) : State := if v = .accepted then s else countOwnVoided s

/-- The outcome is passed to the frame's source, unless the source has been cleared (R40, R75). -/
def passOutcome (f : InFlight) (slots : VerdictSlots) (s : State) : State :=
  if f.discarded then s
  else
    match verdictOf f.frame.body slots with
    | .accepted => sourceAccepted f.offer s
    | .void c => sourceVoided f.offer c (someSlot slots .stale) s

/-- The states in which a sender that observes STALE on its own frame excludes itself (R45). -/
def inGroup (s : State) : Bool := s.life == .member || s.life == .entering || s.life == .copying

/-- A sender that observes STALE on its own frame records STALE and excludes itself (R45), whether or not its readback matched
(log entry 41). -/
def staleOnOwn (slots : VerdictSlots) (s : State) : State :=
  if someSlot slots .stale && inGroup s then exclude .stale (recordFault .stale (ownCount s) (some (self s)) s) else s

/-- Step 3 of R61 for a station that transmitted: the frame is no longer in flight and its outcome is dealt with. -/
def closeOwnFrame (slots : VerdictSlots) (s : State) : State :=
  match s.round.inFlight with
  | some f =>
    let s' := countIfVoid (verdictOf f.frame.body slots) { s with round := { s.round with inFlight := none } }
    staleOnOwn slots (passOutcome f slots s')
  | none => s

/-! ### Step 4: the limits (R63, R64, R66) -/

/-- A duplicated ID is dealt with as the state requires (R63). -/
def duplicateIdAction (s : State) : State :=
  match s.life with
  | .member | .entering | .copying | .listening => exclude .duplicateId s
  | .excluded => changeReason .duplicateId s
  | .halted => { s with pendingStop := none }
  | .off => s

/-- The readback-mismatch limit (R63). -/
def mismatchLimitReached (s : State) : State :=
  duplicateIdAction (recordFault .duplicateId (ownCount s) none s)

/-- A frame with this station's ID in a round it did not transmit in; the rule does not act at a station that has entered HALTED
by the close (R64, R176; log entry 34). -/
def duplicateSender (s : State) : State :=
  if s.life = .halted then s else duplicateIdAction (recordFault .duplicateId (ownCount s) (some (self s)) s)

/-- The station leaves its group at the solo-veto limit as its state requires (R66); one in HALTED by the close has no group to
leave (log entry 35). -/
def soloVetoAction (s : State) : State :=
  match s.life with
  | .member => { s with pendingLeave := some .soloVeto }
  | .entering | .copying =>
    if s.join.isOpen then { s with pendingLeave := some .soloVeto } else exclude .soloVeto s
  | .listening => exclude .soloVeto s
  | .excluded => changeReason .soloVeto s
  | .halted | .off => s

/-- The solo-veto limit: fault, suppression, departure (R66). -/
def soloVetoLimitReached (s : State) : State :=
  let s' := recordFault .soloVeto (ownCount s) none s
  soloVetoAction { s' with round := { s'.round with suppressed := true } }

/-- Step 4 of R61. `solo` says that this close brought the solo-veto count to its limit. -/
def closeLimits (r : Reception) (solo : Bool) (s : State) : State :=
  let s₁ := if r.mismatchReached then mismatchLimitReached s else s
  let s₂ := if r.duplicate then duplicateSender s₁ else s₁
  if solo then soloVetoLimitReached s₂ else s₂

/-! ### Step 5: handing on, and the member's application (R37, R38) -/

/-- An accepted STOP: every observer not in OFF or HALTED enters HALTED (R177). -/
def acceptStop (reason : StopReason) (s : State) : State :=
  if s.life = .off ∨ s.life = .halted then s else enterHalted reason none s

/-- The sender of an accepted frame is heard: its silence timer restarts if one is held, and it leaves the pending-evict set
(R84, R87); the own frame restarts the own beacon timer and satisfies a due BEACON (R80, R81). -/
def hearSender (sender : StationId) (s : State) : State :=
  let m := s.monitor
  let silence :=
    match m.silence[sender] with
    | .none => m.silence
    | .running _ | .ranOut => put m.silence sender (.running (3 * intervalMs (ownInterval s)))
  let m' := { m with silence := silence, pendingEvict := dropFrom m.pendingEvict sender }
  { s with monitor :=
      if sender = self s then { m' with beaconTimer := groupBeats 1 s, beaconDue := false } else m' }

/-- One event of an application is told to this station: record, ticket and lease (R11, R14 to R23, R141, R145, R146). -/
def tellEvent (e : TableEvent) (s : State) : State :=
  if e.station = self s then
    match e with
    | .granted _ t k g => makeRecord (.granted t k g) (startLease t s)
    | .refused _ t k reason => makeRecord (.refused t k reason) (cancelLease t s)
    | .waits _ t _ => placeTicket t .waiting s
    | .yielded _ t k => makeRecord (.yielded t k) (endLease k s)
    | .notHeld _ t k => makeRecord (.notHeld t k) (endLease k s)
    | .recalled _ t k => makeRecord (.recalled t k) (cancelLease t s)
    | .recallDone _ t k => makeRecord (.recallDone t k) s
    | .tooLate _ t k => makeRecord (.tooLate t k) s
    | .notWaiting _ t k => makeRecord (.notWaiting t k) s
    | .expired _ k => makeRecord (.leaseExpired k) (reportLease k s)
  else s

/-- The events of an application in their order. -/
def tellEvents : List TableEvent → State → State
  | [], s => s
  | e :: rest, s => tellEvents rest (tellEvent e s)

/-- The roster monitor is told of one change (R95). -/
def monitorTold (c : RosterChange) (ms : Nat) (m : RosterMonitor) : RosterMonitor :=
  match c.now with
  | .full => { m with silence := put m.silence c.id (.running ms) }
  | .absent | .pending =>
    { m with silence := put m.silence c.id .none, pendingEvict := dropFrom m.pendingEvict c.id }

/-- The roster monitor is told of every change of another station, after the application (R95). -/
def tellMonitor : List RosterChange → State → State
  | [], s => s
  | c :: rest, s =>
    tellMonitor rest
      (if c.id = self s then s
       else { s with monitor := monitorTold c (3 * intervalMs (ownInterval s)) s.monitor })

/-- An EVICT takes its target, and a LEAVE its sender, out of the pending-evict set, whatever it did to the roster (R87). -/
def evictSettled (f : Frame) (s : State) : State :=
  match f.body with
  | .evict x => { s with monitor := { s.monitor with pendingEvict := dropFrom s.monitor.pendingEvict x } }
  | .leave => { s with monitor := { s.monitor with pendingEvict := dropFrom s.monitor.pendingEvict f.sender } }
  | _ => s

/-- A DECLINE pending for the entering station is withdrawn (R103). -/
def withdrawDecline (f : Frame) (s : State) : State :=
  match f.body with
  | .entry _ => { s with declines := s.declines.filter fun d => d.joiner != f.sender }
  | _ => s

/-- The copy is complete or abandoned when the application touches the joiner's standing (R109). -/
def abandonCopy (changes : List RosterChange) (s : State) : State :=
  match s.copy with
  | some c => if changes.any (fun x => x.id == c.joiner) then { s with copy := none, copyRetry := .zero } else s
  | none => s

/-- The lock records a copy carries: those that differ from the founding record, in ascending number (R107). -/
def copiedLocks (r : Replica) : List LockId := allLocks.filter fun k => r.locks[k] != .founding

/-- The copy a new shadow starts (R106, R107). -/
def newCopy (joiner : StationId) (r : Replica) : CopyState :=
  { joiner := joiner, shadow := r, ecc := .sound,
    frames := .roster :: (copiedLocks r).map .lock ++ [.admission (copiedLocks r).length] }

/-- What an ENTRY's outcome asks of the answering member: a DECLINE queued, or a shadow taken (R104 to R107). -/
def answerEntry (o : Option EntryOutcome) (s : State) : State :=
  match o with
  | some (.declined m j reason) =>
    if m = self s then { s with declines := s.declines ++ [{ joiner := j, reason := reason }] } else s
  | some (.opened m j) =>
    if m = self s then { s with copy := some (newCopy j s.replica), copyRetry := .zero } else s
  | none => s

/-- The IDs an application took out of FULL. -/
def departed (changes : List RosterChange) : List StationId :=
  (changes.filter fun c => c.was == .full && c.now != .full).map RosterChange.id

/-- The queued frame is a NOTE to one of these IDs. -/
def noteTo (ids : List StationId) : HostFrame → Bool
  | .note d _ _ _ => ids.contains d
  | _ => false

/-- The frame of this ticket is dropped with GONE if it is a NOTE (R151). -/
def goneRecord (f : HostFrame) (s : State) : State :=
  match f with
  | .note d _ _ t => makeRecord (.undelivered t d .gone) s
  | _ => s

/-- The GONE records of dropped notes, in queue order (R151). -/
def goneRecords : List HostFrame → State → State
  | [], s => s
  | f :: rest, s => goneRecords rest (goneRecord f s)

/-- Queued NOTEs to departed destinations are dropped, but not one in flight; a new head is looked up (R151). -/
def dropGoneNotes (ids : List StationId) (s : State) : State :=
  let gone := fun f => noteTo ids f && !hostInFlight (hostTicket f) s
  let headGone := (s.hostQueue.head?.map gone).getD false
  let s' := goneRecords (s.hostQueue.filter gone)
    { s with
      hostQueue := s.hostQueue.filter (fun f => !gone f),
      hostRetry := if headGone then .zero else s.hostRetry,
      busyWait := if headGone then none else s.busyWait }
  if headGone then lookupHead s' else s'

/-- A ROSTER_CHANGED record for an application that changed a roster state (R96). -/
def rosterRecord (changes : List RosterChange) (s : State) : State :=
  if changes.isEmpty then s else addRecord .rosterChanged s

/-- What a completed application tells the blocks of this station, in order: records of the table, ROSTER_CHANGED, roster
monitor, entry engine, host port (R11, R87, R95, R96, R103 to R109, R151). -/
def tellApplied (f : Frame) (a : Applied) (s : State) : State :=
  dropGoneNotes (departed a.changes)
    (answerEntry a.entry
      (abandonCopy a.changes
        (withdrawDecline f
          (evictSettled f
            (tellMonitor a.changes
              (rosterRecord a.changes (tellEvents a.events { s with replica := a.replica })))))))

/-- An EVICT naming this station from a FULL sender (R92). -/
def evictsSelf (f : Frame) (s : State) : Bool :=
  match f.body with
  | .evict x => x == self s && s.replica.roster[f.sender] == .full
  | _ => false

/-- A member applies an accepted in-step table frame; an uncorrectable error abandons the application whole (R12, R38, R92,
R182). -/
def applyAtMember (f : Frame) (s : State) : State :=
  let words := applicationReads (self s) f s.replica
  let s' := afterReads words s
  if !readable words s then storageFault (some f.sender) s'
  else if evictsSelf f s' then exclude .evicted (recordFault .evicted (ownCount s') (some f.sender) s')
  else tellApplied f (applyFrame f s'.replica) s'

/-- An accepted NOTE is stored by the destination that marked TAKEN, with NOTE_ARRIVED (R153, R157). -/
def storeNote (f : Frame) (taken : Bool) (s : State) : State :=
  match f.body with
  | .note dest topic payload =>
    if dest = self s ∧ taken ∧ s.inbound.length < Config.inboundSize then
      addRecord .noteArrived
        { s with inbound := s.inbound ++ [{ sender := f.sender, topic := topic, payload := payload }] }
    else s
  | _ => s

/-- A clean frame of a higher-ranking group excludes the station; `own` is the tag it ranks against (R102). -/
def rankForeign (f : Frame) (own : Option GroupTag) (s : State) : State :=
  match own with
  | some t =>
    if ranksHigher f.tag t then exclude .group (recordFault .group (ownCount s) (some f.sender) s) else s
  | none => s

/-- The kind is an ENTRY. -/
def isEntry : Body → Bool
  | .entry _ => true
  | _ => false

/-- A member's own-group frame that its sequence check, if it makes one, finds in step and accepted is handed on (R37, R43). -/
def memberTakes (f : Frame) (taken : Bool) (s : State) : State :=
  if isTable f.body then applyAtMember f s else storeNote f taken s

/-- The close at a member, for a frame other than STOP (R37, R43, R44, R46). `own`: this station transmitted it. -/
def closeAtMember (f : Frame) (own taken : Bool) (slots : VerdictSlots) (s : State) : State :=
  if foreign f s then
    if clean slots ∧ !isEntry f.body then rankForeign f s.replica.tag s else s
  else
    let st := if own || isEntry f.body then .inStep else standing f.sequence s.replica.sequence
    if st = .ahead ∧ clean slots then exclude .missed (recordFault .missed (ownCount s) (some f.sender) s)
    else if verdictOf f.body slots = .accepted then
      let s' := hearSender f.sender s
      if st = .inStep then memberTakes f taken s' else s'
    else s

/-! ### The joiner (section 5.5) -/

/-- The tracked count after an accepted frame of the target group (R42, R113): the cut and the catch-up count once COPY_ROSTER
has been taken, before that the frame's own sequence, an ENTRY adding one. -/
def trackedAfter (f : Frame) (s : State) : Option Half :=
  match s.join.rosterCopy with
  | some c => some (c.cut + s.join.catchUpCount)
  | none =>
    if isEntry f.body then s.join.tracked.map (· + 1)
    else some (if isTable f.body then f.sequence + 1 else f.sequence)

/-- The tracked count follows an accepted frame. -/
def track (f : Frame) (s : State) : State := { s with join := { s.join with tracked := trackedAfter f s } }

/-- One more catch-up frame is counted (R113). -/
def countCatchUp (s : State) : State :=
  { s with join := { s.join with catchUpCount := s.join.catchUpCount + 1 } }

/-- An accepted table frame of the target group, from the own ENTRY's acceptance onward, is counted and, with no abort pending,
stored; a 25th aborts the join (R113). -/
def catchUpFrame (f : Frame) (s : State) : State :=
  if s.join.entryPending then track f s
  else
    let s' := track f (countCatchUp s)
    if s.join.abort.isSome then s'
    else if s.join.catchUp.length < Config.catchUpSize then
      { s' with join := { s'.join with catchUp := s'.join.catchUp ++ [f] } }
    else abortJoin .catchupOverflow none s'

/-- The accepted frame ends the join at the members: an EVICT of this station, or in COPYING the departure or re-entry of the
copy source (R118). -/
def endsJoin (f : Frame) (s : State) : Bool :=
  let copySource := fun x => s.life == .copying && s.join.source == some x
  s.join.isOpen &&
    match f.body with
    | .evict x => x == self s || copySource x
    | .leave => copySource f.sender
    | .entry _ => copySource f.sender
    | _ => false

/-- The members have ended the join: with an abort LEAVE in flight the ending waits for its close, otherwise it is taken at once
(R118). -/
def membersEndJoin (s : State) : State :=
  let s' := { s with join := { s.join with isOpen := false } }
  if s.join.abort.isSome ∧ sourceInFlightLeave s then s' else takeEnding s'
where
  /-- The own LEAVE is in flight and its outcome wanted. -/
  sourceInFlightLeave (s : State) : Bool :=
    match s.round.inFlight with
    | some f => f.offer.source == .leave && !f.discarded
    | none => false

/-- A COPY_ROSTER naming this station (R114). -/
def takeRosterCopy (f : Frame) (c : RosterCopy) (s : State) : State :=
  if s.life = .entering ∧ s.join.isOpen ∧ s.join.abort = none then
    { s with
      life := .copying,
      join := { s.join with
        source := some f.sender, rosterCopy := some c, joinTimer := none, stallTimer := configBeats 16 s,
        tracked := some (c.cut + s.join.catchUpCount) } }
  else s

/-- A COPY_LOCK from the copy source in COPYING (R114). -/
def takeLockCopy (f : Frame) (k : LockId) (r : LockRecord) (s : State) : State :=
  if s.life = .copying ∧ s.join.source = some f.sender ∧ s.join.abort = none then
    { s with join := { s.join with
        lockCopies := put s.join.lockCopies k (some r), stallTimer := configBeats 16 s } }
  else s

/-- A DECLINE naming this station in ENTERING with join open and no abort pending (R115, R119). -/
def takeDecline (f : Frame) (reason : DeclineReason) (s : State) : State :=
  if s.life = .entering ∧ s.join.isOpen ∧ s.join.abort = none then
    match reason with
    | .joinBusy => leaveJoin s
    | .config => exclude .config (recordFault .config (ownCount s) (some f.sender) s)
  else s

/-- The number of distinct locks recorded (R116). -/
def locksRecorded (s : State) : Nat := (allLocks.filter fun k => s.join.lockCopies[k].isSome).length

/-- The three checks of an ADMIT naming this station (R116). -/
def admitChecks (f : Frame) (copies : Nat) (s : State) : Bool :=
  s.life == .copying && locksRecorded s == copies &&
    match s.join.rosterCopy with
    | some c => c.cut + s.join.catchUpCount == f.sequence
    | none => false

/-- The replica the copy installs, the own ID PENDING and the join record naming this station (R27, R50, R117). -/
def installed (c : RosterCopy) (s : State) : Replica :=
  { tag := s.join.target, interval := some c.interval, sequence := c.cut,
    join := s.join.source.map fun m => { joiner := self s, source := m },
    roster := put c.roster (self s) .pending,
    locks := Vector.ofFn fun k => (s.join.lockCopies[k]).getD .founding }

/-- The roster monitor at admission: a silence timer for each FULL ID but the own, own beacon timer started (R79). -/
def monitorAtAdmission (id : StationId) (ms : Nat) (roster : Roster) : RosterMonitor :=
  { silence := Vector.ofFn fun i => if roster[i] = .full ∧ i ≠ id then .running (3 * ms) else .none,
    beaconTimer := some ms, beaconDue := false, pendingEvict := noIds }

/-- Entry to MEMBER by admission with this replica (R79, R105, R117, R139). -/
def admitted (r : Replica) (s : State) : State :=
  addRecord (.stateChanged .admitted)
    { s with
      life := .member, replica := r, join := .none, declines := [], copy := none, leases := [], expireSet := noLocks,
      monitor := monitorAtAdmission (self s) (intervalMs (r.interval.getD (configInterval s))) r.roster }

/-- The words install itself reads, those it sets from the copy: roster, join record and the locks recorded (R27, R117, R181;
log entry 9). A lock that no COPY_LOCK named is set to the founding record without being read (R27). -/
def installReads (s : State) : List StoreWord :=
  .roster :: .join :: (allLocks.filter fun k => s.join.lockCopies[k].isSome).flatMap fun k => [.lock k, .queue k]

/-- Install writes every word of the replica with its check bits, so old damage is gone; what the words hold when the applications
after it read them is the damage that has come since (R3, R27, R181; log entry 40). -/
def writeInstalled (s : State) : State := { s with ecc := s.lateDamage, lateDamage := .sound }

/-- An install met an uncorrectable word: the fault action over the cleared replica, every word of it written (R117, R182; log
entry 9). -/
def abandonInstall (sender : Option StationId) (s : State) : State := storageFault sender (clearReplica s)

/-- The catch-up frames and the ADMIT applied in their order to the installed replica, each with the reads of its application, and
entry to MEMBER after the last; an uncorrectable error abandons the install with the sender of the frame being applied (R117,
R181, R182). -/
def catchUpFrom : List Frame → Replica → State → State
  | [], r, s => admitted r s
  | f :: rest, r, s =>
    let words := applicationReads (self s) f r
    let s' := afterReads words s
    if readable words s then catchUpFrom rest (applyFrame f r).replica s' else abandonInstall (some f.sender) s'

/-- Install, catch-up and ADMIT at the joiner; an uncorrectable error met by install's own reads abandons it with no sender (R117,
R182; log entry 9). -/
def install (f : Frame) (c : RosterCopy) (s : State) : State :=
  let s' := afterReads (installReads s) s
  if readable (installReads s) s then catchUpFrom (s.join.catchUp ++ [f]) (installed c s) (writeInstalled s')
  else abandonInstall none s'

/-- An ADMIT naming this station: counted only while an abort is pending; checked, and installed or aborted, otherwise
(R113, R116). -/
def admitSelf (f : Frame) (copies : Nat) (s : State) : State :=
  if s.join.abort.isSome then track f (countCatchUp s)
  else if admitChecks f copies s then
    match s.join.rosterCopy with
    | some c => install f c s
    | none => s
  else abortJoin .copyFault (some f.sender) (track f (countCatchUp s))

/-- An accepted frame of the target group that another station sent (R37, R113 to R118). -/
def joinerTakes (f : Frame) (s : State) : State :=
  if endsJoin f s then membersEndJoin s
  else
    match f.body with
    | .admission j copies => if j = self s then admitSelf f copies s else catchUpFrame f s
    | .copyRoster j c => if j = self s then takeRosterCopy f c (track f s) else track f s
    | .copyLock k r => takeLockCopy f k r (track f s)
    | .decline j reason => if j = self s then takeDecline f reason (track f s) else track f s
    | .beacon _ | .note _ _ _ => track f s
    | .claim _ _ _ _ _ | .yield _ _ | .recall _ _ _ | .expire _ | .entry _ | .leave | .evict _ => catchUpFrame f s
    | .stop _ => s

/-- The close at a joiner, for a frame other than STOP (R37, R46, R102). -/
def closeAtJoiner (f : Frame) (own : Bool) (slots : VerdictSlots) (s : State) : State :=
  if foreign f s then
    if clean slots ∧ !isEntry f.body then rankForeign f s.join.target s else s
  else if own then s
  else if verdictOf f.body slots = .accepted then joinerTakes f s
  else s

/-! ### The listener (section 5.1) -/

/-- The tracked count a frame gives a candidate (R42, R98). -/
def candidateCount (f : Frame) : Half := if isTable f.body then f.sequence + 1 else f.sequence

/-- The candidate after an accepted frame (R98). -/
def candidateAfter (f : Frame) (c : Option Candidate) : Option Candidate :=
  match c with
  | none => if isEntry f.body then none else some { tag := f.tag, tracked := candidateCount f }
  | some d =>
    if isEntry f.body then (if f.tag = d.tag then some { d with tracked := d.tracked + 1 } else c)
    else if f.tag = d.tag ∨ ranksHigher f.tag d.tag then some { tag := f.tag, tracked := candidateCount f }
    else c

/-- The station targets its candidate if the backoff timer is not running (R98). -/
def targetCandidate (s : State) : State :=
  match s.listening.candidate with
  | some c =>
    if s.listening.backoff.isSome then s
    else
      { s with
        life := .entering, listening := .stopped,
        join := { JoinState.none with target := some c.tag, tracked := some c.tracked, entryPending := true } }
  | none => s

/-- The close at a listening station, for a frame other than STOP (R98). -/
def closeAtListener (f : Frame) (slots : VerdictSlots) (s : State) : State :=
  let quiet := if clean slots ∧ !isEntry f.body then configBeats 4 s else s.listening.quiet
  let s' := { s with listening := { s.listening with quiet := quiet } }
  if verdictOf f.body slots = .accepted then
    targetCandidate
      { s' with listening := { s'.listening with candidate := candidateAfter f s'.listening.candidate } }
  else s'

/-! ### The whole close (R61) -/

/-- The frame is dealt with as the station's state requires (R37). -/
def handOn (f : Frame) (own taken : Bool) (slots : VerdictSlots) (s : State) : State :=
  match f.body with
  | .stop reason => if verdictOf f.body slots = .accepted then acceptStop reason s else s
  | _ =>
    match s.life with
    | .member => closeAtMember f own taken slots s
    | .entering | .copying => closeAtJoiner f own slots s
    | .listening => closeAtListener f slots s
    | .off | .excluded | .halted => s

/-- The frame whose acceptance the close decides, as this station knows it: one received whole, or, where its readback did not
match, the one it sent, which it handles like any other observer if the slots accept it (R36, R40, R180; log entry 27). A frame
with the own ID that it vetoed on line 3 is none. -/
def frameToHandOn (r : Reception) (sent : Option InFlight) : Option Frame :=
  if r.duplicate then none else if r.mismatch then sent.map InFlight.frame else r.frame

/-- Step 5 of R61: the frame is handed on; `sent` is the frame that was in flight until this close. -/
def closeHandOn (r : Reception) (sent : Option InFlight) (slots : VerdictSlots) (s : State) : State :=
  match frameToHandOn r sent with
  | some f => handOn f sent.isSome (r.mark == some .taken) slots s
  | none => s

/-- The round is over; a new request window opens at once (R53). -/
def endRound (s : State) : State :=
  { s with round := { s.round with
      phase := .between, chosen := none, requestMark := none, won := false, inFlight := none, reception := none } }

/-- The five steps of R61 for what was received in the round. Each step acts on the state the step before left, so a joiner whose
own accepted LEAVE returned it to LISTENING observes that frame as a listener (log entry 36), and a solo veto that brings the
count to its limit acts at step 4 also where step 3 has excluded the station and set the count to 0 (log entry 17). -/
def closeSteps (r : Reception) (slots : VerdictSlots) (s : State) : State :=
  closeHandOn r s.round.inFlight slots
    (closeLimits r (soloVetoReached r slots s)
      (closeOwnFrame slots (closeSoloVetoes r slots (closeVetoes r (closePointer r slots s)))))

/-- A verdict window closes (R61). A station that takes no part in the round does nothing. -/
def closeVerdictWindow (slots : VerdictSlots) (s : State) : State :=
  match s.round.phase, s.round.reception with
  | .verdict, some r => endRound (closeSteps r slots s)
  | _, _ => s

/-! ### The limits as the closes they take place at -/

/-- This is a close and the round received this. -/
def atClose (test : Reception → Bool) (s : State) : Bool :=
  match s.round.phase, s.round.reception with
  | .verdict, some r => test r
  | _, _ => false

/-- The own frame in flight, its outcome wanted, is void with this class. -/
def ownVoid (slots : VerdictSlots) (s : State) (test : Source → VoidClass → Bool) : Bool :=
  match s.round.inFlight with
  | some f =>
    match verdictOf f.frame.body slots with
    | .void c => !f.discarded && test f.offer.source c
    | .accepted => false
  | none => false

/-- The source is the host transmit queue. -/
def isHostSource : Source → Bool
  | .host _ => true
  | _ => false

/-- The head of the host transmit queue is no NOTE to a destination that is not FULL, which would be dropped with GONE instead
(R151). -/
def headRetryable (s : State) : Bool :=
  match s.hostQueue with
  | .note d _ _ _ :: _ => readable [.roster] s && s.replica.roster[d] == .full
  | _ :: _ => true
  | [] => false

/-- At this close the readback-mismatch count reached its limit (R63). -/
def readbackLimitCloses (s : State) : Bool := atClose (fun r => r.mismatchReached) s

/-- At this close the solo-veto count reaches its limit (R66). -/
def soloVetoLimitCloses (slots : VerdictSlots) (s : State) : Bool := atClose (fun r => soloVetoReached r slots s) s

/-- At this close the head of the host transmit queue reaches the attempt limit (R68). -/
def attemptLimitCloses (slots : VerdictSlots) (s : State) : Bool :=
  atClose (fun _ => true) s && headRetryable s && Config.attemptLimit ≤ s.hostRetry.attempts + 1 &&
    ownVoid slots s (fun o c => isHostSource o && (c == .veto || c == .noAnswer))

/-- At this close the copy cursor's frame reaches the attempt limit (R69). -/
def copyLimitCloses (slots : VerdictSlots) (s : State) : Bool :=
  atClose (fun _ => true) s && s.copy.isSome && Config.attemptLimit ≤ s.copyRetry.attempts + 1 &&
    ownVoid slots s (fun o c => o == .copy && c == .veto)

/-- At this close the NOTE at the head reaches the BUSY limit (R70). -/
def busyLimitCloses (slots : VerdictSlots) (s : State) : Bool :=
  atClose (fun _ => true) s && headRetryable s && Config.busyLimit ≤ s.hostRetry.busy + 1 &&
    ownVoid slots s (fun o c => isHostSource o && c == .busy)

/-! ### The meanings of the rows -/

/-- VERDICT_WINDOW_CLOSE (R61). -/
def execVerdictWindowClose (slots : VerdictSlots) (s : State) : Host.Outcome State Fault Refusal :=
  .next (closeVerdictWindow slots s)

/-- READBACK_MISMATCH_LIMIT (R63): the close of the window in which the count reached 4 (log entry 1). -/
def execReadbackMismatchLimit (slots : VerdictSlots) (s : State) : Host.Outcome State Fault Refusal :=
  .next (if readbackLimitCloses s then closeVerdictWindow slots s else s)

/-- SOLO_VETO_LIMIT (R66): the close at which the count reaches 4 (log entry 1). -/
def execSoloVetoLimit (slots : VerdictSlots) (s : State) : Host.Outcome State Fault Refusal :=
  .next (if soloVetoLimitCloses slots s then closeVerdictWindow slots s else s)

/-- ATTEMPT_LIMIT_DROP (R68): the close at which the head reaches 8 attempts (log entry 1). -/
def execAttemptLimitDrop (slots : VerdictSlots) (s : State) : Host.Outcome State Fault Refusal :=
  .next (if attemptLimitCloses slots s then closeVerdictWindow slots s else s)

/-- COPY_FRAME_DROP (R69): the close at which the copy frame reaches 8 attempts (log entry 1). -/
def execCopyFrameDrop (slots : VerdictSlots) (s : State) : Host.Outcome State Fault Refusal :=
  .next (if copyLimitCloses slots s then closeVerdictWindow slots s else s)

/-- BUSY_LIMIT_DROP (R70): the close at which the NOTE reaches 16 BUSY answers (log entry 1). -/
def execBusyLimitDrop (slots : VerdictSlots) (s : State) : Host.Outcome State Fault Refusal :=
  .next (if busyLimitCloses slots s then closeVerdictWindow slots s else s)

end Sys2Proof.Machine
end

