-- ==== Sys2Proof/Machine/Operands.lean ====
section
/-!
DEFINITION. The byte formats of the host port (sections 12.2 and 12.3): command codes and lengths, argument bytes, status
bytes, result bytes and records.
-/

namespace Sys2Proof.Machine

/-! ### Commands -/

/-- A command code with its number of argument bytes, a NOTE's as far as its length byte; none where the code names no
command (section 12.2, R189). -/
def argumentCount (code : Byte) : Option Nat :=
  match code.toNat with
  | 0x01 => some 0
  | 0x02 => some 1
  | 0x03 => some 3
  | 0x04 => some 1
  | 0x05 => some 2
  | 0x06 => some 3
  | 0x07 => some 0
  | 0x08 => some 0
  | 0x09 => some 1
  | 0x0A => some 0
  | 0x0B => some 0
  | 0x0C => some 0
  | 0x0D => some 0
  | 0x0E => some 0
  | 0x0F => some 0
  | 0x10 => some 0
  | _ => none

/-- The bytes are a whole command: the code with its last argument byte (R160), or a code that names no command (R161). -/
def commandComplete : List Byte → Bool
  | [] => false
  | code :: args =>
    match argumentCount code with
    | none => args.isEmpty
    | some n =>
      if code.toNat = 0x06 then
        match args with
        | _ :: _ :: length :: payload =>
          if 16 < length.toNat then payload.isEmpty else payload.length == length.toNat
        | _ => false
      else args.length == n

/-- The bytes a host command is sent as: its code and its argument bytes (section 12.2); none for what is no host command. -/
def commandBytes : Instr → Option (List Byte)
  | .badCommand code => some [code]
  | .status => some [0x01]
  | .start arg => some [0x02, arg]
  | .claim lock flags lease => some [0x03, lock, flags, lease]
  | .yield lock => some [0x04, lock]
  | .recall lock target => some [0x05, lock, target]
  | .note dest topic length payload => some (0x06 :: dest :: topic :: length :: payload)
  | .next => some [0x07]
  | .takeNote => some [0x08]
  | .lookLock lock => some [0x09, lock]
  | .lookRoster => some [0x0A]
  | .leave => some [0x0B]
  | .stop => some [0x0C]
  | .restart => some [0x0D]
  | .softReset => some [0x0E]
  | .faults => some [0x0F]
  | .clearFaults => some [0x10]
  | .powerOnReset _ | .selectFalls | .selectRises | .roundStart | .resynchronizingStart | .requestWindowOpen
  | .requestWindowClose _ | .emptyRequestWindow | .frameReceived _ | .verdictWindowClose _ | .readbackMismatchLimit _
  | .soloVetoLimit _ | .attemptLimitDrop _ | .copyFrameDrop _ | .busyLimitDrop _ | .busyWaitExpiry | .ownBeaconTimerExpiry
  | .silenceTimerExpiry _ | .quietWindowExpiry | .backoffTimerExpiry | .joinTimerExpiry | .stallTimerExpiry
  | .rejoinTimerExpiry | .leaseCountOut _ | .byteArrives _ => none

/-- The status values (R162). -/
inductive Status
  | ok
  | badCommand
  | badState
  | badArg
  | noTicket
  | queueFull
  | noLease
  | empty
  | doneLocal
  deriving DecidableEq, Repr

/-- The status codes (section 12.2). -/
def statusCode : Status → Byte
  | .ok => 0x00
  | .badCommand => 0x01
  | .badState => 0x02
  | .badArg => 0x03
  | .noTicket => 0x04
  | .queueFull => 0x05
  | .noLease => 0x06
  | .empty => 0x07
  | .doneLocal => 0x08

/-- A START argument: bits 5 to 3 must be 0 and bits 2 to 0 an interval code (R189). -/
def startConfigOf (arg : Byte) : Option StartConfig :=
  if arg.extractLsb' 3 3 ≠ 0#3 then none
  else
    (intervalOf (0#5 ++ arg.extractLsb' 0 3)).map fun i =>
      { interval := i, autoRejoin := arg.getLsbD 6, stopOnFault := arg.getLsbD 7 }

/-- Mode, class and form of a CLAIM command's flags byte: bits 4 to 0 must be 0 (R189). -/
def claimFlagsOf (flags : Byte) : Option (Mode × ClaimClass × Form) :=
  if flags.extractLsb' 0 5 ≠ 0#5 then none
  else some (modeOf (flags.getLsbD 7), classOf (flags.getLsbD 6), formOf (flags.getLsbD 5))

/-! ### Results -/

/-- State codes (section 12.2). -/
def lifeCode : Life → Byte
  | .off => 0x00
  | .listening => 0x01
  | .entering => 0x02
  | .copying => 0x03
  | .member => 0x04
  | .excluded => 0x05
  | .halted => 0x06

/-- A number 0 to 15 marked present in bit 7, or 00h when absent (R189); bits 6 to 4 read 0 (log entry 39). -/
def presentByte : Option (Fin 16) → Byte
  | some i => 8#4 ++ (BitVec.ofFin i : BitVec 4)
  | none => 0x00

/-- The two bytes of a group tag, absent as zeros (R189). -/
def tagBytes : Option GroupTag → List Byte
  | some t => [presentByte (some t.founder), t.count]
  | none => [0x00, 0x00]

/-- Result bytes of STATUS (R170, R189). -/
def statusBytes (s : State) : List Byte :=
  [lifeCode s.life, byteOf s.straps.id.val] ++ tagBytes s.replica.tag
    ++ [hiByte s.replica.sequence, loByte s.replica.sequence, statusFlags s, byteOf s.records.length,
        byteOf s.inbound.length]

/-- The frozen byte of LOOK_LOCK and LOOK_ROSTER: bit 0; the other bits read 0 (log entry 39). -/
def frozenByte (s : State) : Byte := 0#7 ++ BitVec.ofBool (frozen s)

/-- Result bytes of LOOK_LOCK: no tickets (R170, section 12.2). -/
def lockBytes (s : State) (r : LockRecord) : List Byte :=
  [frozenByte s, lockStateCode r.state, hiByte (holderBits r.holders), loByte (holderBits r.holders), r.generation,
   byteOf r.queue.length] ++ r.queue.map entryByte

/-- Result bytes of LOOK_ROSTER (R170, R189). -/
def rosterLookBytes (s : State) : List Byte :=
  [frozenByte s] ++ rosterBytes s.replica.roster
    ++ (match s.replica.join with
        | some j => [presentByte (some j.joiner), byteOf j.source.val]
        | none => [0x00, 0xFF])
    ++ tagBytes s.replica.tag
    ++ [match s.replica.interval with
        | some i => intervalCode i
        | none => 0xFF]
    ++ [hiByte s.replica.sequence, loByte s.replica.sequence]

/-- Codes of fault kinds (section 12.3). -/
def faultCode : FaultKind → Byte
  | .stale => 0x13
  | .missed => 0x14
  | .soloVeto => 0x15
  | .duplicateId => 0x16
  | .uncorrectable => 0x17
  | .group => 0x18
  | .evicted => 0x19
  | .config => 0x1A
  | .copyFault => 0x1D
  | .catchupOverflow => 0x1E
  | .copyStall => 0x1F

/-- The sender byte of FAULTS, FFh when none. -/
def faultSenderByte : Option StationId → Byte
  | some i => byteOf i.val
  | none => 0xFF

/-- Result bytes of FAULTS (R186, R189). -/
def faultBytes (s : State) : List Byte :=
  (match s.fault with
   | some f => [faultCode f.kind, hiByte f.sequence, loByte f.sequence, faultSenderByte f.sender]
   | none => [0x00, 0x00, 0x00, 0xFF])
    ++ [hiByte s.counters.vetoesCast, loByte s.counters.vetoesCast, hiByte s.counters.ownVoided,
        loByte s.counters.ownVoided, hiByte s.counters.framesDropped, loByte s.counters.framesDropped,
        hiByte s.counters.corrected, loByte s.counters.corrected]

/-- Result bytes of TAKE_NOTE (R158, section 12.2). -/
def noteBytes (n : InboundNote) : List Byte :=
  [byteOf n.sender.val, byteOf n.topic.val, byteOf n.payload.length] ++ n.payload

/-- Codes of the reasons of REFUSED (section 12.3). -/
def claimRefusalCode : ClaimRefusal → Byte
  | .held => 0x01
  | .waiting => 0x02
  | .busy => 0x03
  | .quota => 0x04
  | .pool => 0x05

/-- Codes of the reasons of UNDELIVERED. -/
def undeliveredCode : Undelivered → Byte
  | .vetoLimit => 0x06
  | .gone => 0x07
  | .noAnswer => 0x08
  | .busyLimit => 0x09

/-- Codes of the reasons of exclusion. -/
def exclusionCode : ExclusionReason → Byte
  | .left => 0x12
  | .stale => 0x13
  | .missed => 0x14
  | .soloVeto => 0x15
  | .duplicateId => 0x16
  | .uncorrectable => 0x17
  | .group => 0x18
  | .evicted => 0x19
  | .config => 0x1A

/-- State code and reason code of a STATE_CHANGED. -/
def stateChangeBytes : StateChange → List Byte
  | .founded => [lifeCode .member, 0x10]
  | .admitted => [lifeCode .member, 0x11]
  | .excluded r => [lifeCode .excluded, exclusionCode r]
  | .halted .host => [lifeCode .halted, 0x1B]
  | .halted .fault => [lifeCode .halted, 0x1C]

/-- The four bytes of a record (section 12.3). -/
def recordBytes : Record → List Byte
  | .granted t k g => [0x01, byteOf t.val, byteOf k.val, g]
  | .refused t k r => [0x02, byteOf t.val, byteOf k.val, claimRefusalCode r]
  | .yielded t k => [0x03, byteOf t.val, byteOf k.val, 0x00]
  | .notHeld t k => [0x04, byteOf t.val, byteOf k.val, 0x00]
  | .recalled t k => [0x05, byteOf t.val, byteOf k.val, 0x00]
  | .recallDone t k => [0x06, byteOf t.val, byteOf k.val, 0x00]
  | .tooLate t k => [0x07, byteOf t.val, byteOf k.val, 0x00]
  | .notWaiting t k => [0x08, byteOf t.val, byteOf k.val, 0x00]
  | .failed t k => [0x09, byteOf t.val, byteOf k.val, 0x06]
  | .delivered t d => [0x0A, byteOf t.val, byteOf d.val, 0x00]
  | .undelivered t d r => [0x0B, byteOf t.val, byteOf d.val, undeliveredCode r]
  | .leaseExpired k => [0x0C, 0x00, byteOf k.val, 0x00]
  | .rosterChanged => [0x0D, 0x00, 0x00, 0x00]
  | .noteArrived => [0x0E, 0x00, 0x00, 0x00]
  | .stateChanged c => 0x0F :: stateChangeBytes c ++ [0x00]

/-- The filler byte (R189). -/
def filler : Byte := 0xA5

end Sys2Proof.Machine
end

