-- ==== Sys2Proof/Machine/HostPort.lean ====
section
/-!
DEFINITION. The host port (chapter 9): the SPI transaction and the taking of each command. A command row is the arrival of the
byte that completes the command, so it happens when the port has collected the bytes before it; where it has not, the port
takes nothing (log entry 3). Each `take…` is a command's whole effect with its response.
-/

namespace Sys2Proof.Machine

/-! ### The transaction (R160, R161) -/

/-- The response buffer is filled and the port enters RESPONDING; the completing byte put out filler (R160, R189). -/
def respond (bytes : List Byte) (s : State) : State :=
  { s with port := { phase := .responding, collected := [], response := bytes, miso := some filler } }

/-- A response of a status byte alone. -/
def answer (st : Status) (s : State) : State := respond [statusCode st] s

/-- A response OK with result bytes. -/
def answerOk (bytes : List Byte) (s : State) : State := respond (statusCode .ok :: bytes) s

/-- The port has collected the bytes of this command but for the last one. -/
def awaitsLast (bytes : List Byte) (s : State) : Bool :=
  (s.port.phase == .command || s.port.phase == .arguments) && s.port.collected == bytes.dropLast

/-- A command is taken at the arrival of its last byte (R160). -/
def whenTaken (bytes : List Byte) (take : State → State) (s : State) : State :=
  if commandComplete bytes && awaitsLast bytes s then take s else s

/-- A command that needs a state is answered BAD_STATE in any other (R163). -/
def inStates (states : List Life) (take : State → State) (s : State) : State :=
  if states.contains s.life then take s else answer .badState s

/-! ### Commands that queue frames (section 9.3) -/

/-- A ticket of this kind is allocated, the frame that carries it joins the queue, and the response carries it (R165). -/
def queueUnder (t : TicketId) (kind : TicketKind) (f : HostFrame) (s : State) : State :=
  let s' := { s with tickets := put s.tickets t (some { kind := kind, place := .queued }) }
  answerOk [byteOf t.val] (appendHostFrame f s')

/-- The ticket and queue checks, in that order, then the command's own work under the ticket (R162). -/
def withTicket (work : TicketId → State → State) (s : State) : State :=
  match lowestFreeTicket s with
  | none => answer .noTicket s
  | some t => if Config.hostQueueSize ≤ s.hostQueue.length then answer .queueFull s else work t s

/-- The CLAIM command in MEMBER with sound arguments (R140, R168). -/
def acceptClaim (k : LockId) (m : Mode) (c : ClaimClass) (form : Form) (lease : Byte) : State → State :=
  withTicket fun t s =>
    if lease = 0 then queueUnder t (.claim k) (.claim k m c form t) s
    else if Config.leaseTableSize ≤ s.leases.length then answer .noLease s
    else queueUnder t (.claim k) (.claim k m c form t) { s with leases := s.leases ++ [.reserved k lease t] }

/-- CLAIM taken (R168). -/
def takeClaim (lock flags lease : Byte) : State → State :=
  inStates [.member] fun s =>
    match lockOf lock, claimFlagsOf flags with
    | some k, some (m, c, form) => acceptClaim k m c form lease s
    | _, _ => answer .badArg s

/-- YIELD taken (R143, R168). -/
def takeYield (lock : Byte) : State → State :=
  inStates [.member] fun s =>
    match lockOf lock with
    | some k => withTicket (fun t s => queueUnder t .yield (.yield k t) (stopLease k s)) s
    | none => answer .badArg s

/-- The frame of this ticket is a queued CLAIM. -/
def isClaimUnder (t : TicketId) : HostFrame → Bool
  | .claim _ _ _ _ t' => t' == t
  | _ => false

/-- A queued CLAIM that is not in flight is removed locally, from whatever position, with RECALLED; a choice of it for the
coming round is undone, and a NOTE that becomes the head so is looked up, its record after RECALLED (R74, R141, R150, R169; log
entry 37). -/
def removeLocally (target : TicketId) (k : LockId) (s : State) : State :=
  let wasHead := (s.hostQueue.head?.map (isClaimUnder target)).getD false
  let s₁ := cancelLease target
    { s with
      hostQueue := s.hostQueue.eraseP (isClaimUnder target),
      hostRetry := if wasHead then .zero else s.hostRetry,
      round := { s.round with chosen := s.round.chosen.filter fun o => o.source != .host target } }
  let s₂ := makeRecord (.recalled target k) s₁
  if wasHead then lookupHead s₂ else s₂

/-- RECALL in MEMBER with arguments in range (R169). -/
def acceptRecall (k : LockId) (target : TicketId) (s : State) : State :=
  let byFrame := withTicket (fun t s => queueUnder t .recall (.recall k target t) s)
  match s.tickets[target] with
  | some { kind := .claim k', place := .queued } =>
    if k' ≠ k then answer .badArg s
    else if hostInFlight target s then byFrame s
    else answer .doneLocal (removeLocally target k s)
  | some { kind := .claim k', place := .waiting } => if k' ≠ k then answer .badArg s else byFrame s
  | _ => answer .badArg s

/-- RECALL taken (R169). -/
def takeRecall (lock target : Byte) : State → State :=
  inStates [.member] fun s =>
    match lockOf lock, smallOf target with
    | some k, some t => acceptRecall k t s
    | _, _ => answer .badArg s

/-- NOTE taken (R149, R150). -/
def takeNoteCommand (dest topic length : Byte) (payload : List Byte) : State → State :=
  inStates [.member] fun s =>
    match smallOf dest, smallOf topic with
    | some d, some tp =>
      if d = self s ∨ 16 < length.toNat then answer .badArg s
      else withTicket (fun t s => queueUnder t .note (.note d tp payload t) s) s
    | _, _ => answer .badArg s

/-! ### Commands that read the station (sections 9.4 and 9.5) -/

/-- STATUS taken (R170). -/
def takeStatus (s : State) : State := answerOk (statusBytes s) s

/-- What the reading of a record frees: its ticket, or the REPORTED entry behind a LEASE_EXPIRED (R146, R174). -/
def freeForRecord (r : Record) (s : State) : State :=
  match r with
  | .leaseExpired k => { s with leases := s.leases.erase (.reported k) }
  | _ =>
    match ticketOfRecord r with
    | some t => freeTicket t s
    | none => s

/-- NEXT taken (R174). -/
def takeNext (s : State) : State :=
  match s.records with
  | [] => answer .empty s
  | r :: rest => answerOk (recordBytes r) (freeForRecord r { s with records := rest })

/-- TAKE_NOTE taken (R158). -/
def takeInbound (s : State) : State :=
  match s.inbound with
  | [] => answer .empty s
  | n :: rest => answerOk (noteBytes n) { s with inbound := rest }

/-- A look at the replica: OK with the bytes, or, where a word cannot be read, the fault action of R182 in MEMBER and the fault
alone in HALTED, with the frozen count, and BAD_STATE in both (R183). -/
def look (words : List StoreWord) (bytes : State → List Byte) (s : State) : State :=
  let s' := afterReads words s
  if readable words s then answerOk (bytes s') s'
  else if s.life = .halted then answer .badState (recordFault .uncorrectable s.replica.sequence none s')
  else answer .badState (storageFault none s')

/-- LOOK_LOCK taken (R170). -/
def takeLookLock (lock : Byte) : State → State :=
  inStates [.member, .halted] fun s =>
    match lockOf lock with
    | some k => look [.lock k, .queue k] (fun s => lockBytes s s.replica.locks[k]) s
    | none => answer .badArg s

/-- LOOK_ROSTER taken (R170). -/
def takeLookRoster : State → State :=
  inStates [.member, .halted] (look [.roster, .join] rosterLookBytes)

/-- FAULTS taken (R186). -/
def takeFaults (s : State) : State := answerOk (faultBytes s) s

/-- CLEAR_FAULTS taken (R186). -/
def takeClearFaults (s : State) : State := answer .ok { s with fault := none, counters := .zero }

/-! ### Commands that steer the life cycle -/

/-- The configuration is replaced, the rejoin timer stops, the limit counts are 0 and suppression ends (R66, R126). -/
def configure (c : StartConfig) (s : State) : State :=
  { s with
    config := some c, rejoin := none,
    round := { s.round with mismatches := 0, soloVetoes := 0, suppressed := false } }

/-- START taken (R126). -/
def takeStart (arg : Byte) : State → State :=
  inStates [.off, .excluded] fun s =>
    match startConfigOf arg with
    | some c => answer .ok (enterListening false (configure c s))
    | none => answer .badArg s

/-- The own frame from this source is in flight. -/
def sourceInFlight (src : Source) (s : State) : Bool :=
  match s.round.inFlight with
  | some f => f.offer.source == src && !f.discarded
  | none => false

/-- A LEAVE command in ENTERING or COPYING ends the join; an abort or a solo-veto LEAVE already pending goes before the row for a
join no longer open (R66, R121; log entry 38). -/
def leaveWhileJoining (s : State) : State :=
  if s.join.entryPending then
    if sourceInFlight .entry s then { s with join := { s.join with leaveAtEntryClose := true } } else exclude .left s
  else if s.pendingLeave = some .soloVeto then s
  else if s.join.abort.isSome then { s with join := { s.join with abort := some .left } }
  else if s.join.isOpen then pendLeave .abort (pendAbort .left s)
  else exclude .left s

/-- A LEAVE command in MEMBER: a LEAVE already pending keeps its source (R171). -/
def leaveAsMember (s : State) : State :=
  if s.pendingLeave.isSome then s else { s with pendingLeave := some .command }

/-- LEAVE taken (R171). -/
def takeLeave : State → State :=
  inStates [.member, .entering, .copying] fun s =>
    answer .ok (if s.life = .member then leaveAsMember s else leaveWhileJoining s)

/-- STOP taken: a STOP already pending is left as it is (R171, R176). -/
def takeStop : State → State :=
  inStates [.listening, .entering, .copying, .member, .excluded] fun s =>
    answer .ok (if s.pendingStop.isSome then s else { s with pendingStop := some .host })

/-- RESTART's clearing: replica, pending STOP, limit counts, suppression (R66, R180). -/
def clearForRestart (s : State) : State :=
  let s' := clearReplica s
  { s' with pendingStop := none, round := { s'.round with mismatches := 0, soloVetoes := 0, suppressed := false } }

/-- RESTART taken (R180). -/
def takeRestart : State → State :=
  inStates [.halted] fun s => answer .ok (enterListening false (clearForRestart s))

/-- What every reset sets, the fault record and the counters apart (R137, R138); the strap pins, whose levels are latched
(R124), the host port and the model's own fields are not the reset's. No row stands for a change of the pins between two resets
(log entry 5). -/
def resetStation (s : State) : State :=
  { State.reset with
    fault := s.fault, counters := s.counters, port := s.port, straps := s.strapPins, strapPins := s.strapPins,
    freeCount := s.freeCount, pending := s.pending }

/-- SOFT_RESET taken: the port keeps the transaction and delivers OK (R138, R171). -/
def takeSoftReset (s : State) : State := answer .ok (resetStation s)

/-! ### Bytes -/

/-- The taking of the command that these bytes are, whole (R160). -/
def takeBytes (bytes : List Byte) (s : State) : State :=
  match bytes with
  | [] => s
  | code :: args =>
    match code.toNat, args with
    | 0x01, [] => takeStatus s
    | 0x02, [arg] => takeStart arg s
    | 0x03, [lock, flags, lease] => takeClaim lock flags lease s
    | 0x04, [lock] => takeYield lock s
    | 0x05, [lock, target] => takeRecall lock target s
    | 0x06, dest :: topic :: length :: payload => takeNoteCommand dest topic length payload s
    | 0x07, [] => takeNext s
    | 0x08, [] => takeInbound s
    | 0x09, [lock] => takeLookLock lock s
    | 0x0A, [] => takeLookRoster s
    | 0x0B, [] => takeLeave s
    | 0x0C, [] => takeStop s
    | 0x0D, [] => takeRestart s
    | 0x0E, [] => takeSoftReset s
    | 0x0F, [] => takeFaults s
    | 0x10, [] => takeClearFaults s
    | _, _ => answer .badCommand s

/-- A byte arrives while the port collects a command: it is kept, or it completes the command, which is taken (R160). -/
def collectByte (b : Byte) (s : State) : State :=
  let bytes := s.port.collected ++ [b]
  if commandComplete bytes then takeBytes bytes s
  else { s with port := { s.port with phase := .arguments, collected := bytes, miso := some filler } }

/-- A byte is clocked while the port responds: the next byte of the buffer goes out, and the port discards once the buffer has
gone out whole (R160). -/
def clockOut (s : State) : State :=
  match s.port.response with
  | [] => { s with port := { s.port with phase := .discarding, miso := some filler } }
  | b :: rest =>
    { s with port := { s.port with
        phase := if rest.isEmpty then .discarding else .responding, response := rest, miso := some b } }

/-- A byte arrives (R160). In IDLE no byte is clocked. -/
def arrive (b : Byte) (s : State) : State :=
  match s.port.phase with
  | .idle => s
  | .command | .arguments => collectByte b s
  | .responding => clockOut s
  | .discarding => { s with port := { s.port with miso := some filler } }

/-- SEL falls: a new transaction (R160). -/
def selectFalls (s : State) : State :=
  if s.port.phase = .idle then { s with port := { phase := .command, collected := [], response := [], miso := none } }
  else s

/-- SEL rises: the transaction ends in any phase (R160, R161). -/
def selectRises (s : State) : State := { s with port := .reset }

/-- RST is released with these levels at the strap pins (R137). -/
def powerOn (pins : Straps) (s : State) : State :=
  { State.reset with straps := pins, strapPins := pins, freeCount := s.freeCount, pending := s.pending }

/-! ### The meanings of the rows -/

/-- The outcome of a meaning that always goes on. -/
abbrev Result := Host.Outcome State Fault Refusal

/-- POWER_ON_RESET (R137). -/
def execPowerOnReset (pins : Straps) (s : State) : Result := .next (powerOn pins s)

/-- SELECT_FALLS (R160). -/
def execSelectFalls (s : State) : Result := .next (selectFalls s)

/-- SELECT_RISES (R161). -/
def execSelectRises (s : State) : Result := .next (selectRises s)

/-- BAD_COMMAND (R161): answered by its status alone, no change of state. -/
def execBadCommand (code : Byte) (s : State) : Result :=
  .next (if (argumentCount code).isNone then whenTaken [code] (answer .badCommand) s else s)

/-- STATUS (R170). -/
def execStatus (s : State) : Result := .next (whenTaken [0x01] takeStatus s)

/-- START (R126). -/
def execStart (arg : Byte) (s : State) : Result := .next (whenTaken [0x02, arg] (takeStart arg) s)

/-- CLAIM (R168). -/
def execClaim (lock flags lease : Byte) (s : State) : Result :=
  .next (whenTaken [0x03, lock, flags, lease] (takeClaim lock flags lease) s)

/-- YIELD (R168). -/
def execYield (lock : Byte) (s : State) : Result := .next (whenTaken [0x04, lock] (takeYield lock) s)

/-- RECALL (R169). -/
def execRecall (lock target : Byte) (s : State) : Result :=
  .next (whenTaken [0x05, lock, target] (takeRecall lock target) s)

/-- NOTE (R149). -/
def execNote (dest topic length : Byte) (payload : List Byte) (s : State) : Result :=
  .next (whenTaken (0x06 :: dest :: topic :: length :: payload) (takeNoteCommand dest topic length payload) s)

/-- NEXT (R174). -/
def execNext (s : State) : Result := .next (whenTaken [0x07] takeNext s)

/-- TAKE_NOTE (R158). -/
def execTakeNote (s : State) : Result := .next (whenTaken [0x08] takeInbound s)

/-- LOOK_LOCK (R170). -/
def execLookLock (lock : Byte) (s : State) : Result := .next (whenTaken [0x09, lock] (takeLookLock lock) s)

/-- LOOK_ROSTER (R170). -/
def execLookRoster (s : State) : Result := .next (whenTaken [0x0A] takeLookRoster s)

/-- LEAVE (R171). -/
def execLeave (s : State) : Result := .next (whenTaken [0x0B] takeLeave s)

/-- STOP (R176). -/
def execStop (s : State) : Result := .next (whenTaken [0x0C] takeStop s)

/-- RESTART (R180). -/
def execRestart (s : State) : Result := .next (whenTaken [0x0D] takeRestart s)

/-- SOFT_RESET (R138). -/
def execSoftReset (s : State) : Result := .next (whenTaken [0x0E] takeSoftReset s)

/-- FAULTS (R186). -/
def execFaults (s : State) : Result := .next (whenTaken [0x0F] takeFaults s)

/-- CLEAR_FAULTS (R186). -/
def execClearFaults (s : State) : Result := .next (whenTaken [0x10] takeClearFaults s)

/-- BYTE_ARRIVES (R160). A byte that completes a command takes it (log entry 3). -/
def execByteArrives (b : Byte) (s : State) : Result := .next (arrive b s)

end Sys2Proof.Machine
end

