-- ==== Sys2Proof/Machine/Timers.lean ====
section
/-!
DEFINITION. The timers running out (R70, R80, R84, R99, R98, R112, R114, R133, R142). A timer that is not running does not run
out: the command has no effect then (log entries 2 and 4).
-/

namespace Sys2Proof.Machine

/-! ### The wait after BUSY (R70, R156) -/

/-- The wait is over: the head is offered again at a later request window. -/
def endBusyWait (s : State) : State := { s with busyWait := none }

/-! ### The roster monitor (R80, R84) -/

/-- A BEACON becomes due and the own beacon timer stops (R80). -/
def beaconFallsDue (s : State) : State :=
  if s.monitor.beaconTimer.isSome then { s with monitor := { s.monitor with beaconTimer := none, beaconDue := true } } else s

/-- A silence timer is running. -/
def isRunning : SilenceTimer → Bool
  | .running _ => true
  | .none | .ranOut => false

/-- A peer's silence timer runs out: the peer joins the pending-evict set and the timer stops (R84). -/
def fallsSilent (peer : StationId) (s : State) : State :=
  if isRunning s.monitor.silence[peer] then
    { s with monitor := { s.monitor with
        silence := put s.monitor.silence peer .ranOut, pendingEvict := addTo s.monitor.pendingEvict peer } }
  else s

/-! ### The listener (R98, R99, R100) -/

/-- The replica a founder holds: its group record, itself FULL alone, and the founding table (R26, R100). -/
def foundingReplica (id : StationId) (count : Byte) (interval : Interval) : Replica :=
  { tag := some { founder := id, count := count }, interval := some interval, sequence := 0, join := none,
    roster := put (Vector.replicate 16 .absent) id .full, locks := Vector.replicate 64 .founding }

/-- The station founds a group (R79, R100, R105, R139). -/
def found (s : State) : State :=
  addRecord (.stateChanged .founded)
    { s with
      foundingCount := s.foundingCount + 1,
      replica := foundingReplica (self s) (s.foundingCount + 1) (configInterval s),
      ecc := .sound,
      monitor := { RosterMonitor.stopped with beaconTimer := configBeats 1 s },
      round := { s.round with pointer := some 0 },
      listening := .stopped, declines := [], copy := none, leases := [], expireSet := noLocks,
      life := .member }

/-- The quiet window runs out (R99). -/
def quietWindowEnds (s : State) : State :=
  if s.life = .listening ∧ s.listening.quiet.isSome then found s else s

/-- The backoff timer runs out; a present candidate is targeted (R98). -/
def backoffEnds (s : State) : State :=
  if s.life = .listening ∧ s.listening.backoff.isSome then
    targetCandidate { s with listening := { s.listening with backoff := none } }
  else s

/-! ### The joiner (R112, R114) -/

/-- The join timer runs out: the join has failed with a timeout (R112). -/
def joinTimesOut (s : State) : State :=
  if s.life = .entering ∧ s.join.joinTimer.isSome then
    leaveJoin { s with join := { s.join with joinTimer := none } }
  else s

/-- The stall timer runs out: COPY_STALL, and the join is aborted (R114, R119). -/
def copyStalls (s : State) : State :=
  if s.life = .copying ∧ s.join.stallTimer.isSome then
    abortJoin .copyStall none { s with join := { s.join with stallTimer := none } }
  else s

/-! ### The life-cycle logic (R66, R133) -/

/-- The rejoin timer runs out: the station enters LISTENING; solo-veto suppression ends, and with it the solo-veto count that
reached the limit is 0 again (R66, R133; log entry 33). -/
def rejoinEnds (s : State) : State :=
  if s.life = .excluded ∧ s.rejoin.isSome then
    enterListening false
      { s with
        rejoin := none,
        round := { s.round with
          soloVetoes := if s.round.suppressed then 0 else s.round.soloVetoes, suppressed := false } }
  else s

/-! ### The lease unit (R142) -/

/-- The RUNNING lease of a lock counts out: its entry is COUNTED_OUT and the lock joins the EXPIRE set (R142, R144). -/
def leaseCountsOut (k : LockId) (s : State) : State :=
  if s.leases.any (runningFor k) then
    { s with leases := s.leases.map (countOutEntry k), expireSet := addTo s.expireSet k }
  else s

/-! ### The meanings of the rows -/

/-- BUSY_WAIT_EXPIRY (R156). -/
def execBusyWaitExpiry (s : State) : Host.Outcome State Fault Refusal := .next (endBusyWait s)

/-- OWN_BEACON_TIMER_EXPIRY (R80). -/
def execOwnBeaconTimerExpiry (s : State) : Host.Outcome State Fault Refusal := .next (beaconFallsDue s)

/-- SILENCE_TIMER_EXPIRY (R84). -/
def execSilenceTimerExpiry (peer : StationId) (s : State) : Host.Outcome State Fault Refusal := .next (fallsSilent peer s)

/-- QUIET_WINDOW_EXPIRY (R99). -/
def execQuietWindowExpiry (s : State) : Host.Outcome State Fault Refusal := .next (quietWindowEnds s)

/-- BACKOFF_TIMER_EXPIRY (R98). -/
def execBackoffTimerExpiry (s : State) : Host.Outcome State Fault Refusal := .next (backoffEnds s)

/-- JOIN_TIMER_EXPIRY (R112). -/
def execJoinTimerExpiry (s : State) : Host.Outcome State Fault Refusal := .next (joinTimesOut s)

/-- STALL_TIMER_EXPIRY (R114). -/
def execStallTimerExpiry (s : State) : Host.Outcome State Fault Refusal := .next (copyStalls s)

/-- REJOIN_TIMER_EXPIRY (R133). -/
def execRejoinTimerExpiry (s : State) : Host.Outcome State Fault Refusal := .next (rejoinEnds s)

/-- LEASE_COUNT_OUT (R142). -/
def execLeaseCountOut (lock : LockId) (s : State) : Host.Outcome State Fault Refusal := .next (leaseCountsOut lock s)

end Sys2Proof.Machine
end

