-- ==== Sys2Proof/Machine/Dispatch.lean ====
section
/-!
DEFINITION. One arm for each command.
-/

namespace Sys2Proof.Machine

/-- The effect of a command on everything but the queue. -/
def exec (i : Instr) (s : State) : Host.Outcome State Fault Refusal :=
  match i with
  | .powerOnReset pins => Sys2Proof.Machine.execPowerOnReset pins s
  | .selectFalls => Sys2Proof.Machine.execSelectFalls s
  | .selectRises => Sys2Proof.Machine.execSelectRises s
  | .badCommand code => Sys2Proof.Machine.execBadCommand code s
  | .status => Sys2Proof.Machine.execStatus s
  | .start arg => Sys2Proof.Machine.execStart arg s
  | .claim lock flags lease => Sys2Proof.Machine.execClaim lock flags lease s
  | .yield lock => Sys2Proof.Machine.execYield lock s
  | .recall lock target => Sys2Proof.Machine.execRecall lock target s
  | .note dest topic length payload => Sys2Proof.Machine.execNote dest topic length payload s
  | .next => Sys2Proof.Machine.execNext s
  | .takeNote => Sys2Proof.Machine.execTakeNote s
  | .lookLock lock => Sys2Proof.Machine.execLookLock lock s
  | .lookRoster => Sys2Proof.Machine.execLookRoster s
  | .leave => Sys2Proof.Machine.execLeave s
  | .stop => Sys2Proof.Machine.execStop s
  | .restart => Sys2Proof.Machine.execRestart s
  | .softReset => Sys2Proof.Machine.execSoftReset s
  | .faults => Sys2Proof.Machine.execFaults s
  | .clearFaults => Sys2Proof.Machine.execClearFaults s
  | .roundStart => Sys2Proof.Machine.execRoundStart s
  | .resynchronizingStart => Sys2Proof.Machine.execResynchronizingStart s
  | .requestWindowOpen => Sys2Proof.Machine.execRequestWindowOpen s
  | .requestWindowClose slots => Sys2Proof.Machine.execRequestWindowClose slots s
  | .emptyRequestWindow => Sys2Proof.Machine.execEmptyRequestWindow s
  | .frameReceived line => Sys2Proof.Machine.execFrameReceived line s
  | .verdictWindowClose slots => Sys2Proof.Machine.execVerdictWindowClose slots s
  | .readbackMismatchLimit slots => Sys2Proof.Machine.execReadbackMismatchLimit slots s
  | .soloVetoLimit slots => Sys2Proof.Machine.execSoloVetoLimit slots s
  | .attemptLimitDrop slots => Sys2Proof.Machine.execAttemptLimitDrop slots s
  | .copyFrameDrop slots => Sys2Proof.Machine.execCopyFrameDrop slots s
  | .busyLimitDrop slots => Sys2Proof.Machine.execBusyLimitDrop slots s
  | .busyWaitExpiry => Sys2Proof.Machine.execBusyWaitExpiry s
  | .ownBeaconTimerExpiry => Sys2Proof.Machine.execOwnBeaconTimerExpiry s
  | .silenceTimerExpiry peer => Sys2Proof.Machine.execSilenceTimerExpiry peer s
  | .quietWindowExpiry => Sys2Proof.Machine.execQuietWindowExpiry s
  | .backoffTimerExpiry => Sys2Proof.Machine.execBackoffTimerExpiry s
  | .joinTimerExpiry => Sys2Proof.Machine.execJoinTimerExpiry s
  | .stallTimerExpiry => Sys2Proof.Machine.execStallTimerExpiry s
  | .rejoinTimerExpiry => Sys2Proof.Machine.execRejoinTimerExpiry s
  | .leaseCountOut lock => Sys2Proof.Machine.execLeaseCountOut lock s
  | .byteArrives b => Sys2Proof.Machine.execByteArrives b s

end Sys2Proof.Machine
end

