-- ==== Sys2Proof/WellFormed.lean ====
section
/-!
DEFINITION. Which commands are well-formed as syntax: the operands agree with what the row says happened.
-/

namespace Sys2Proof

/-- A NOTE command is complete: as many payload bytes as its length byte says, or none when the length is out of range and
the command is taken at the length byte (R160, R161). -/
def noteComplete (length : Byte) (payload : List Byte) : Bool :=
  if 16 < length.toNat then payload.isEmpty else payload.length == length.toNat

/-- A code that names no command: 00h and codes above 10h (R189). -/
def namesNoCommand (code : Byte) : Bool := code.toNat == 0 || 0x10 < code.toNat

/-- At least one slot of the request window holds a request mark (R53). -/
def someRequest (slots : RequestSlots) : Bool :=
  allIds.any fun i => slots[i] != .empty

/-- The operands of a command agree with its row. -/
def Instr.wellFormed : Instr → Bool
  | .badCommand code => namesNoCommand code
  | .note _ _ length payload => noteComplete length payload
  | .requestWindowClose slots => someRequest slots
  | .powerOnReset _ | .selectFalls | .selectRises | .status | .start _ | .claim _ _ _ | .yield _ | .recall _ _ | .next
  | .takeNote | .lookLock _ | .lookRoster | .leave | .stop | .restart | .softReset | .faults | .clearFaults
  | .roundStart | .resynchronizingStart | .requestWindowOpen | .emptyRequestWindow | .frameReceived _
  | .verdictWindowClose _ | .readbackMismatchLimit _ | .soloVetoLimit _ | .attemptLimitDrop _ | .copyFrameDrop _
  | .busyLimitDrop _ | .busyWaitExpiry | .ownBeaconTimerExpiry | .silenceTimerExpiry _ | .quietWindowExpiry
  | .backoffTimerExpiry | .joinTimerExpiry | .stallTimerExpiry | .rejoinTimerExpiry | .leaseCountOut _
  | .byteArrives _ => true

end Sys2Proof
end

