-- ==== Sys2Proof/Safety.lean ====
section
/-!
DEFINITION. What counts as a sound station: the laws of the device over a replica (R2, R5 to R8, R17, R76, R77), the lock laws
wherever the station holds lock records, the capacities of its queues and tables, and the values its blocks hold in each state
of the life cycle. Also the words the statements use of the host port.
-/

namespace Sys2Proof.Machine

/-! ### The laws of a replica -/

/-- No queue is left whose head could be granted (R17). -/
def headBlocked (r : LockRecord) : Bool :=
  match r.queue with
  | [] => true
  | e :: _ => !grantable r e.mode

/-- The station stands in the lock's holder set or in its queue. -/
def standsIn (x : StationId) (r : LockRecord) : Bool := has r.holders x || r.queue.any fun e => e.station == x

/-- Every lock record agrees with its holder set, orders its queue and holds no station twice (R2, R7, R8). -/
abbrev LocksLawful (locks : Locks) : Prop := ∀ k : LockId, lawfulLock locks[k] = true

/-- No queue is left whose head could be granted (R17). -/
abbrev HeadsBlocked (locks : Locks) : Prop := ∀ k : LockId, headBlocked locks[k] = true

/-- At most 48 entries wait in all, and at most 4 of any one station (R5, R6). -/
abbrev PoolKept (locks : Locks) : Prop :=
  poolInUse locks ≤ Config.poolSize ∧ ∀ x : StationId, entriesOf x locks ≤ Config.quota

/-- Only FULL stations stand in a holder set or a queue (R8, R76). -/
abbrev OnlyFullStand (r : Replica) : Prop :=
  ∀ (k : LockId) (x : StationId), standsIn x r.locks[k] = true → r.roster[x] = .full

/-- One roster entry is PENDING exactly when the join record is present: the joiner's; its copy source is FULL (R77). -/
def JoinAgrees (r : Replica) : Prop :=
  (∀ x : StationId, r.roster[x] = .pending ↔ r.join.map JoinRecord.joiner = some x) ∧
    ∀ j, r.join = some j → r.roster[j.source] = .full

/-- The laws of the device over one replica. -/
structure ReplicaLaws (r : Replica) : Prop where
  lawful   : LocksLawful r.locks
  blocked  : HeadsBlocked r.locks
  pool     : PoolKept r.locks
  onlyFull : OnlyFullStand r
  join     : JoinAgrees r

/-! ### The lock laws in every place where the station holds lock records -/

/-- The replica, the shadow, the received copy and the frame just received hold lawful lock records only (R2, R7, R8, R34). -/
structure TablesLawful (s : State) : Prop where
  replica  : LocksLawful s.replica.locks
  shadow   : ∀ c, s.copy = some c → LocksLawful c.shadow.locks
  received : ∀ (k : LockId) (r : LockRecord), s.join.lockCopies[k] = some r → lawfulLock r = true
  frame    : ∀ rc f, s.round.reception = some rc → rc.frame = some f → frameChecks f = true

/-! ### Capacities -/

/-- At most one unread record of each coalesced kind: ROSTER_CHANGED, NOTE_ARRIVED, STATE_CHANGED (R173). -/
def coalescedOnce (q : List Record) : Bool :=
  q.count .rosterChanged ≤ 1 && q.count .noteArrived ≤ 1 && (q.filter isStateChanged).length ≤ 1

/-- The host transmit queue, the lease table, the inbound notes, the catch-up queue and the DECLINE list hold no more than the spec
gives them, the list one DECLINE for a joiner; each coalesced record stands once; and no count stands at its limit, but for the
solo-veto count, whose limit brings suppression, under which no VETO of line 2 is placed (R65, R66, R68 to R70, R105, R113, R139,
R157, R167, R173). The length of the notification queue as a whole is not among these. -/
structure WithinCapacity (s : State) : Prop where
  hostQueue    : s.hostQueue.length ≤ Config.hostQueueSize
  leases       : s.leases.length ≤ Config.leaseTableSize
  inbound      : s.inbound.length ≤ Config.inboundSize
  catchUp      : s.join.catchUp.length ≤ Config.catchUpSize
  declines     : s.declines.length ≤ 16
  declinedOnce : (s.declines.map Decline.joiner).Nodup
  coalesced    : coalescedOnce s.records = true
  attempts     : s.hostRetry.attempts < Config.attemptLimit
  busy         : s.hostRetry.busy < Config.busyLimit
  copyAttempts : s.copyRetry.attempts < Config.attemptLimit
  soloVetoes   : s.round.soloVetoes ≤ Config.soloVetoLimit
  soloLimit    : s.round.suppressed = false → s.round.soloVetoes < Config.soloVetoLimit
  soloMarks    : s.round.suppressed = true → ∀ r, s.round.reception = some r → r.vetoLine2 = false

/-! ### The blocks in each state of the life cycle -/

/-- The own ENTRY is in flight and its outcome wanted. -/
def entryInFlight (s : State) : Bool := sourceInFlight .entry s

/-- What the blocks hold in each state of the life cycle (R50, R79, R97, R105, R106, R111, R123, R127, R128, R133, R178). -/
structure BlocksAgree (s : State) : Prop where
  configured : s.life = .off ↔ s.config = none
  offSilent  : s.life = .off → s.round.phase = .idle ∧ s.round.inFlight = none ∧ s.pendingStop = none
  excluded   : s.life = .excluded ↔ s.exclusionReason.isSome = true
  halted     : s.life = .halted ↔ s.haltReason.isSome = true
  grouped    : s.life = .member → s.replica.tag.isSome = true ∧ s.replica.interval.isSome = true
  cleared    : s.life ≠ .member → s.life ≠ .halted → s.replica = .cleared
  hostIdle   : s.life ≠ .member → s.tickets = Vector.replicate 16 none ∧ s.hostQueue = [] ∧ s.busyWait = none
  monitor    : s.life ≠ .member → s.monitor = .stopped
  leases     : s.life ≠ .member → s.leases = [] ∧ s.expireSet = noLocks
  source     : s.life ≠ .member → s.declines = [] ∧ s.copy = none
  listening  : s.life ≠ .listening → s.listening = .stopped
  joining    : s.life ≠ .entering → s.life ≠ .copying → s.join = .none
  targeted   : s.life = .entering ∨ s.life = .copying → s.join.target.isSome = true ∧ s.join.tracked.isSome = true
  copied     : s.life = .copying → s.join.source.isSome = true ∧ s.join.rosterCopy.isSome = true
  entry      : entryInFlight s = true → s.join.entryPending = true
  rejoin     : s.rejoin.isSome = true → s.life = .excluded
  leave      : s.pendingLeave.isSome = true → s.life = .member ∨ s.life = .entering ∨ s.life = .copying
  haltStop   : s.life = .halted → s.pendingStop ≠ some .host

/-! ### Words of the statements: the host port -/

/-- The port has collected exactly these bytes of the present transaction (R160). -/
abbrev Collected (bytes : List Byte) (s : State) : Prop :=
  s.port.phase = (if bytes.isEmpty then .command else .arguments) ∧ s.port.collected = bytes

/-- The state with this response buffer, the port in RESPONDING; the byte that completed the command put out filler (R160,
R189). -/
def answered (bytes : List Byte) (s : State) : State :=
  { s with port := { phase := .responding, collected := [], response := bytes, miso := some 0xA5 } }

/-- The states a host command is taken in; none for what is no host command (R163). -/
def takenIn : Instr → Option (List Life)
  | .start _ => some [.off, .excluded]
  | .claim _ _ _ | .yield _ | .recall _ _ | .note _ _ _ _ => some [.member]
  | .lookLock _ | .lookRoster => some [.member, .halted]
  | .leave => some [.member, .entering, .copying]
  | .stop => some [.listening, .entering, .copying, .member, .excluded]
  | .restart => some [.halted]
  | .badCommand _ | .status | .next | .takeNote | .softReset | .faults | .clearFaults =>
    some [.off, .listening, .entering, .copying, .member, .excluded, .halted]
  | .powerOnReset _ | .selectFalls | .selectRises | .roundStart | .resynchronizingStart | .requestWindowOpen
  | .requestWindowClose _ | .emptyRequestWindow | .frameReceived _ | .verdictWindowClose _ | .readbackMismatchLimit _
  | .soloVetoLimit _ | .attemptLimitDrop _ | .copyFrameDrop _ | .busyLimitDrop _ | .busyWaitExpiry | .ownBeaconTimerExpiry
  | .silenceTimerExpiry _ | .quietWindowExpiry | .backoffTimerExpiry | .joinTimerExpiry | .stallTimerExpiry
  | .rejoinTimerExpiry | .leaseCountOut _ | .byteArrives _ => none

/-- The lowest-numbered free ticket (R165). -/
abbrev LowestFree (t : TicketId) (s : State) : Prop := s.tickets[t] = none ∧ ∀ u : TicketId, u < t → s.tickets[u] ≠ none

/-- No word of these is damaged (R181). -/
abbrev AllGood (words : List StoreWord) (c : StoreCondition) : Prop := ∀ w ∈ words, conditionOf w c = .good

/-! ### Words of the statements: rounds -/

/-- The station takes part in a verdict window, having found this in the frame part. -/
abbrev AtVerdict (r : Reception) (s : State) : Prop := s.round.phase = .verdict ∧ s.round.reception = some r

/-- A frame received whole and well-formed, in HALTED or not, answered with this mark or none. -/
def receivedIn (halted : Bool) (f : Frame) (mark : Option VerdictMark) : Reception :=
  { carried := true, frame := some f, vetoLine2 := false, mismatch := false, mismatchReached := false, duplicate := false,
    halted := halted, mark := mark }

/-- A frame received whole and well-formed outside HALTED, answered with this mark or none. -/
abbrev received (f : Frame) (mark : Option VerdictMark) : Reception := receivedIn false f mark

/-- No frame, or one that was not well-formed, answered with VETO on line 2 of R35. -/
def unreceived (carried : Bool) : Reception :=
  { carried := carried, frame := none, vetoLine2 := true, mismatch := false, mismatchReached := false, duplicate := false,
    halted := false, mark := some .veto }

/-- The station's own frame whose readback, made in HALTED or not, did not match; `reached` where that brought the mismatch count to
4. -/
def misreadIn (halted : Bool) (frame : Option Frame) (mark : Option VerdictMark) (reached : Bool) : Reception :=
  { carried := true, frame := frame, vetoLine2 := false, mismatch := true, mismatchReached := reached, duplicate := false,
    halted := halted, mark := mark }

/-- The round engine when the verdict window has closed: nothing is in flight and a new request window opens (R53). -/
def roundOver (r : RoundEngine) : RoundEngine :=
  { r with phase := .between, chosen := none, requestMark := none, won := false, inFlight := none, reception := none }

/-- Every slot of the verdict window is empty but for TAKEN marks (R36). -/
abbrev Unmarked (slots : VerdictSlots) : Prop := ∀ i : StationId, slots[i] = .empty ∨ slots[i] = .taken

end Sys2Proof.Machine
end

