-- ==== Sys2Proof/Certificates/Slice0/Obligations.lean ====
section
/-!
DEFINITION. The statements for the provers.
-/

open Sys2Proof Sys2Proof.Machine

/-! ### The step and the host port -/

/-- A step carries out the command at the front of the queue on the state with the rest of the queue. With no command
waiting the station idles (the model's choice, log entry 4). The queue of commands is the model's own (log entry 21) (09
section 9.1). -/
def Obligations.StepRunsTheFrontCommandOrIdles : Prop :=
  (∀ (c : Instr) (rest : List Instr) (s : State),
     step { s with pending := c :: rest } = exec c { s with pending := rest }) ∧
  (∀ s : State, s.pending = [] → step s = .next s)

/-- Every command has a next state in every state, and leaves the queue of commands alone: the station never stops
answering. That a command with its precondition absent has no effect is the model's choice (log entries 2 and 3) (09 section
9.1, 03 section 3.1). -/
def Obligations.EveryCommandGoesOn : Prop :=
  ∀ (c : Instr) (s : State), ∃ t, exec c s = .next t ∧ t.pending = s.pending

/-- SEL falling on an idle port opens a transaction in COMMAND; SEL rising ends it in any phase, with the response buffer
and the bytes collected gone; nothing else of the station changes (09 section 9.1). -/
def Obligations.SelectOpensAndEndsATransaction : Prop :=
  ∀ s : State,
    (s.port.phase = .idle →
      exec .selectFalls s = .next { s with port := { phase := .command, collected := [], response := [], miso := none } }) ∧
    exec .selectRises s = .next { s with port := { phase := .idle, collected := [], response := [], miso := none } }

/-- What a byte does in each phase of the port: nothing in IDLE; kept in COMMAND and ARGUMENTS when it does not complete the
command; the next response byte goes out in RESPONDING, and the port discards once the last one has; filler in DISCARDING
(09 section 9.1). -/
def Obligations.ByteActsByPortPhase : Prop :=
  ∀ (b : Byte) (s : State),
    (s.port.phase = .idle → exec (.byteArrives b) s = .next s) ∧
    (s.port.phase = .command ∨ s.port.phase = .arguments → commandComplete (s.port.collected ++ [b]) = false →
      exec (.byteArrives b) s =
        .next { s with port :=
          { s.port with phase := .arguments, collected := s.port.collected ++ [b], miso := some 0xA5 } }) ∧
    (∀ r rest, s.port.phase = .responding → s.port.response = r :: rest →
      exec (.byteArrives b) s =
        .next { s with port :=
          { s.port with phase := if rest = [] then .discarding else .responding, response := rest, miso := some r } }) ∧
    (s.port.phase = .discarding →
      exec (.byteArrives b) s = .next { s with port := { s.port with miso := some 0xA5 } })

/-- The byte that completes a well-formed host command takes it: what arrives byte by byte has exactly the effect of the
command's own row. That a command row is the arrival of that byte is the model's reading (log entry 3) (09 section 9.1, 12
section 12.2). -/
def Obligations.LastByteTakesTheCommand : Prop :=
  ∀ (c : Instr) (bytes : List Byte) (b : Byte) (s : State),
    c.wellFormed = true → commandBytes c = some (bytes ++ [b]) → Collected bytes s →
      exec (.byteArrives b) s = exec c s

/-- A code that names no command, 00h or above 10h, is answered BAD_COMMAND alone, and nothing else changes. A host command
in a state it is not taken in is answered BAD_STATE, and nothing else changes. An argument out of its range is answered
BAD_ARG, and nothing else changes; so is a RECALL whose target ticket is not a CLAIM of that lock, QUEUED or WAITING (09
sections 9.1 and 9.3, 12 section 12.2). -/
def Obligations.CommandsAreRefusedByStatusAlone : Prop :=
  (∀ (code : Byte) (s : State), code = 0x00 ∨ 0x10 < code.toNat → Collected [] s →
     exec (.badCommand code) s = .next (answered [0x01] s)) ∧
  (∀ (c : Instr) (bytes : List Byte) (b : Byte) (states : List Life) (s : State),
     c.wellFormed = true → commandBytes c = some (bytes ++ [b]) → Collected bytes s → takenIn c = some states →
       s.life ∉ states → exec c s = .next (answered [0x02] s)) ∧
  (∀ s : State,
     (∀ arg : Byte, Collected [0x02] s → s.life = .off ∨ s.life = .excluded →
       arg.extractLsb' 3 3 ≠ 0 ∨ 4 < (arg.extractLsb' 0 3).toNat →
         exec (.start arg) s = .next (answered [0x03] s)) ∧
     (∀ lock flags lease : Byte, Collected [0x03, lock, flags] s → s.life = .member →
       63 < lock.toNat ∨ flags.extractLsb' 0 5 ≠ 0 →
         exec (.claim lock flags lease) s = .next (answered [0x03] s)) ∧
     (∀ lock : Byte, Collected [0x04] s → s.life = .member → 63 < lock.toNat →
         exec (.yield lock) s = .next (answered [0x03] s)) ∧
     (∀ lock target : Byte, Collected [0x05, lock] s → s.life = .member → 63 < lock.toNat ∨ 15 < target.toNat →
         exec (.recall lock target) s = .next (answered [0x03] s)) ∧
     (∀ (k : LockId) (t : TicketId) (lock target : Byte), Collected [0x05, lock] s → s.life = .member →
       lock.toNat = k.val → target.toNat = t.val → s.tickets[t] ≠ some { kind := .claim k, place := .queued } →
       s.tickets[t] ≠ some { kind := .claim k, place := .waiting } →
         exec (.recall lock target) s = .next (answered [0x03] s)) ∧
     (∀ (dest topic length : Byte) (payload : List Byte) (bytes : List Byte) (b : Byte),
       (Instr.note dest topic length payload).wellFormed = true →
       0x06 :: dest :: topic :: length :: payload = bytes ++ [b] → Collected bytes s → s.life = .member →
       15 < dest.toNat ∨ 15 < topic.toNat ∨ 16 < length.toNat ∨ dest.toNat = s.straps.id.val →
         exec (.note dest topic length payload) s = .next (answered [0x03] s)) ∧
     (∀ lock : Byte, Collected [0x09] s → s.life = .member ∨ s.life = .halted → 63 < lock.toNat →
         exec (.lookLock lock) s = .next (answered [0x03] s)))

/-! ### Commands that queue frames -/

/-- A CLAIM command with sound arguments takes the lowest free ticket, queues its frame at the tail and reserves a lease
entry when a lease is asked for; it is answered OK with the ticket, and nothing else changes (07 section 7.1, 09 sections
9.2 and 9.3). -/
def Obligations.ClaimIsQueuedUnderATicket : Prop :=
  ∀ (k : LockId) (m : Mode) (c : ClaimClass) (form : Form) (lock flags lease : Byte) (t : TicketId) (s : State),
    Collected [0x03, lock, flags] s → s.life = .member → lock.toNat = k.val →
    flags = BitVec.ofBool (modeBit m) ++ BitVec.ofBool (classBit c) ++ BitVec.ofBool (formBit form) ++ 0#5 →
    LowestFree t s → s.hostQueue.length < 8 → (lease = 0 ∨ s.leases.length < 8) →
      exec (.claim lock flags lease) s =
        .next (answered [0x00, BitVec.ofNat 8 t.val]
          { s with
            tickets := put s.tickets t (some { kind := .claim k, place := .queued }),
            hostQueue := s.hostQueue ++ [.claim k m c form t],
            leases := if lease = 0 then s.leases else s.leases ++ [.reserved k lease t] })

/-- A YIELD command with a lock in range takes the lowest free ticket and queues its frame, whether or not the lock is held;
a RUNNING lease of the lock becomes STOPPED with units within 1 and those it ran with, whatever the free value; nothing else
of the station changes. The units left are a free value within the spec's bound (log entry 7) (07 section 7.3, 09 section
9.3). -/
def Obligations.YieldIsQueuedAndStopsTheLease : Prop :=
  ∀ (k : LockId) (lock : Byte) (t : TicketId) (s : State),
    Collected [0x04] s → s.life = .member → lock.toNat = k.val → LowestFree t s → s.hostQueue.length < 8 →
      ((∀ l ∈ s.leases, runningFor k l = false) →
        exec (.yield lock) s =
          .next (answered [0x00, BitVec.ofNat 8 t.val]
            { s with
              tickets := put s.tickets t (some { kind := .yield, place := .queued }),
              hostQueue := s.hostQueue ++ [.yield k t] })) ∧
      (∀ (before after : List Lease) (units : Byte),
        s.leases = before ++ .running k units :: after → units ≠ 0 →
        (∀ l ∈ before ++ after, runningFor k l = false) →
          ∃ (left : Byte) (n : Nat), 1 ≤ left.toNat ∧ left.toNat ≤ units.toNat ∧
            exec (.yield lock) s =
              .next (answered [0x00, BitVec.ofNat 8 t.val]
                { s with
                  tickets := put s.tickets t (some { kind := .yield, place := .queued }),
                  hostQueue := s.hostQueue ++ [.yield k t],
                  leases := before ++ .stopped k left :: after, freeCount := n }))

/-- Without a free ticket a CLAIM, YIELD or NOTE command, and a RECALL of a claim that waits or whose frame is in flight, is
answered NO_TICKET, with a full queue QUEUE_FULL, and a leased CLAIM with no FREE lease entry NO_LEASE, in that order of the
checks; nothing else changes (09 sections 9.1 and 9.3, 07 section 7.1). -/
def Obligations.NoRoomRefusesTheCommand : Prop :=
  ∀ (c : Instr) (bytes : List Byte) (b : Byte) (s : State),
    c.wellFormed = true → commandBytes c = some (bytes ++ [b]) → Collected bytes s → s.life = .member →
    (match c with
     | .claim lock flags _ => lock.toNat < 64 ∧ flags.extractLsb' 0 5 = 0
     | .yield lock => lock.toNat < 64
     | .recall lock target =>
       ∃ (k : LockId) (t : TicketId), lock.toNat = k.val ∧ target.toNat = t.val ∧
         (s.tickets[t] = some { kind := .claim k, place := .waiting } ∨
           (s.tickets[t] = some { kind := .claim k, place := .queued } ∧ hostInFlight t s = true))
     | .note dest topic length _ => dest.toNat < 16 ∧ dest.toNat ≠ s.straps.id.val ∧ topic.toNat < 16 ∧ length.toNat ≤ 16
     | _ => False) →
      ((∀ t : TicketId, s.tickets[t] ≠ none) → exec c s = .next (answered [0x04] s)) ∧
      ((∃ t : TicketId, s.tickets[t] = none) → 8 ≤ s.hostQueue.length → exec c s = .next (answered [0x05] s)) ∧
      (∀ lock flags lease, c = .claim lock flags lease → lease ≠ 0 → (∃ t : TicketId, s.tickets[t] = none) →
        s.hostQueue.length < 8 → 8 ≤ s.leases.length → exec c s = .next (answered [0x06] s))

/-- A RECALL of a QUEUED CLAIM that is not in flight removes its frame from wherever it stands, makes RECALLED, moves the
target's ticket to RECORDED, frees the lease reserved under it, and undoes a choice of it for the coming round; the answer
is DONE_LOCAL and nothing else changes. The retry counts go with the head; a NOTE that becomes the head is looked up. A
RECALL of a claim that waits in a queue, or whose frame is in flight, takes the lowest free ticket and queues a RECALL frame
naming the target; nothing else changes. That RECALLED stands before the record of a NOTE that becomes the head and is gone
is the model's reading (log entry 37) (09 section 9.3, 07 section 7.6, 08 section 8.1, 03 sections 3.6 and 3.7). -/
def Obligations.RecallRemovesOrIsQueued : Prop :=
  (∀ (k : LockId) (lock target : Byte) (t : TicketId) (m : Mode) (c : ClaimClass) (form : Form)
     (before after : List HostFrame) (s : State),
     Collected [0x05, lock] s → s.life = .member → lock.toNat = k.val → target.toNat = t.val →
     s.tickets[t] = some { kind := .claim k, place := .queued } →
     s.hostQueue = before ++ .claim k m c form t :: after → (∀ f ∈ before, hostTicket f ≠ t) →
     hostInFlight t s = false →
       let removed : State :=
         { s with
           tickets := put s.tickets t (some { kind := .claim k, place := .recorded }),
           hostQueue := before ++ after,
           hostRetry := if before = [] then { attempts := 0, busy := 0 } else s.hostRetry,
           leases := s.leases.filter fun l => !reservedUnder t l,
           records := s.records ++ [.recalled t k],
           round := { s.round with chosen := s.round.chosen.filter fun o => o.source != .host t } }
       exec (.recall lock target) s =
         .next (answered [0x08] (if before = [] then lookupHead removed else removed))) ∧
  (∀ (k : LockId) (lock target : Byte) (t u : TicketId) (s : State),
     Collected [0x05, lock] s → s.life = .member → lock.toNat = k.val → target.toNat = t.val →
     (s.tickets[t] = some { kind := .claim k, place := .waiting } ∨
       (s.tickets[t] = some { kind := .claim k, place := .queued } ∧ hostInFlight t s = true)) →
     LowestFree u s → s.hostQueue.length < 8 →
       exec (.recall lock target) s =
         .next (answered [0x00, BitVec.ofNat 8 u.val]
           { s with
             tickets := put s.tickets u (some { kind := .recall, place := .queued }),
             hostQueue := s.hostQueue ++ [.recall k t u] }))

/-- A NOTE command with sound arguments takes the lowest free ticket and queues its frame with the bytes as given. Behind
another frame nothing else changes; at the head of an empty queue the destination is looked up: FULL leaves it there,
anything else drops it with UNDELIVERED(GONE) at the same event (08 section 8.1, 09 section 9.3). -/
def Obligations.NoteIsQueuedOrGone : Prop :=
  ∀ (dest topic length : Byte) (payload bytes : List Byte) (b : Byte) (d : StationId) (tp : Fin 16) (t : TicketId) (s : State),
    (Instr.note dest topic length payload).wellFormed = true → length.toNat ≤ 16 →
    0x06 :: dest :: topic :: length :: payload = bytes ++ [b] → Collected bytes s → s.life = .member →
    dest.toNat = d.val → topic.toNat = tp.val → d ≠ s.straps.id → LowestFree t s → s.hostQueue.length < 8 →
      (s.hostQueue ≠ [] ∨ (s.ecc.roster = .good ∧ s.replica.roster[d] = .full) →
        exec (.note dest topic length payload) s =
          .next (answered [0x00, BitVec.ofNat 8 t.val]
            { s with
              tickets := put s.tickets t (some { kind := .note, place := .queued }),
              hostQueue := s.hostQueue ++ [.note d tp payload t] })) ∧
      (s.hostQueue = [] → s.ecc.roster = .good → s.replica.roster[d] ≠ .full →
        exec (.note dest topic length payload) s =
          .next (answered [0x00, BitVec.ofNat 8 t.val]
            { s with
              tickets := put s.tickets t (some { kind := .note, place := .recorded }),
              hostRetry := { attempts := 0, busy := 0 }, busyWait := none,
              records := s.records ++ [.undelivered t d .gone] }))

/-! ### Commands that read the station -/

/-- NEXT removes the record at the head and returns its four bytes. A ticketed record frees its ticket, a LEASE_EXPIRED the
REPORTED lease entry behind it, a coalesced record nothing more; an empty queue answers EMPTY. TAKE_NOTE removes the oldest
inbound note and returns its sender, topic, length and payload; an empty queue answers EMPTY. Nothing else changes, in any
state of the life cycle (09 section 9.5, 08 section 8.4, 07 section 7.5). -/
def Obligations.NextAndTakeNoteTakeTheOldest : Prop :=
  (∀ s : State, Collected [] s →
     (s.records = [] → exec .next s = .next (answered [0x07] s)) ∧
     (∀ r rest, s.records = r :: rest →
       (∀ t, ticketOfRecord r = some t →
         exec .next s =
           .next (answered (0x00 :: recordBytes r) { s with records := rest, tickets := put s.tickets t none })) ∧
       (∀ k (before after : List Lease), r = .leaseExpired k → s.leases = before ++ .reported k :: after →
         .reported k ∉ before →
         exec .next s =
           .next (answered [0x00, 0x0C, 0x00, BitVec.ofNat 8 k.val, 0x00]
             { s with records := rest, leases := before ++ after })) ∧
       (r = .rosterChanged →
         exec .next s = .next (answered [0x00, 0x0D, 0x00, 0x00, 0x00] { s with records := rest })) ∧
       (r = .noteArrived →
         exec .next s = .next (answered [0x00, 0x0E, 0x00, 0x00, 0x00] { s with records := rest })) ∧
       (∀ c, r = .stateChanged c →
         exec .next s = .next (answered ([0x00, 0x0F] ++ stateChangeBytes c ++ [0x00]) { s with records := rest })))) ∧
  (∀ s : State, Collected [] s →
     (s.inbound = [] → exec .takeNote s = .next (answered [0x07] s)) ∧
     (∀ n rest, s.inbound = n :: rest →
       exec .takeNote s =
         .next (answered
           ([0x00, BitVec.ofNat 8 n.sender.val, BitVec.ofNat 8 n.topic.val, BitVec.ofNat 8 n.payload.length] ++ n.payload)
           { s with inbound := rest })))

/-- STATUS answers with state, latched ID, group tag (bit 7 set where present, zeros where absent), sequence, the three
flags and the two counts, and changes nothing. That the bits of the flags byte and of the tag byte that the spec does not
describe read 0 is the model's choice (log entry 39) (09 section 9.4, 12 section 12.2). -/
def Obligations.StatusShowsTheStation : Prop :=
  ∀ s : State, Collected [] s →
    ∃ flags : Byte,
      flags.toNat < 8 ∧ flags.getLsbD 0 = s.round.pointer.isSome ∧ flags.getLsbD 1 = s.fault.isSome ∧
      flags.getLsbD 2 = (s.life == .halted) ∧
      exec .status s =
        .next (answered
          ([0x00, lifeCode s.life, BitVec.ofNat 8 s.straps.id.val]
            ++ (match s.replica.tag with
                | some g => [BitVec.ofNat 8 (128 + g.founder.val), g.count]
                | none => [0x00, 0x00])
            ++ [s.replica.sequence.extractLsb' 8 8, s.replica.sequence.extractLsb' 0 8, flags,
                BitVec.ofNat 8 s.records.length, BitVec.ofNat 8 s.inbound.length]) s)

/-- LOOK_LOCK and LOOK_ROSTER in MEMBER and HALTED, with no word they read damaged, answer OK with the lock record or the
roster, join record and group record of the replica, the frozen flag set in HALTED, and change nothing. The words a look
reads are the model's division (log entry 6), and so is the value 0 of the bits of the frozen, joiner and tag bytes that the
spec does not describe (log entry 39) (09 section 9.4, 12 section 12.2). -/
def Obligations.LooksShowTheReplica : Prop :=
  ∀ s : State, s.life = .member ∨ s.life = .halted →
    (∀ (k : LockId) (lock : Byte), Collected [0x09] s → lock.toNat = k.val → AllGood [.lock k, .queue k] s.ecc →
      exec (.lookLock lock) s =
        .next (answered
          ([0x00, if s.life = .halted then 0x01 else 0x00, lockStateCode s.replica.locks[k].state,
            (holderBits s.replica.locks[k].holders).extractLsb' 8 8, (holderBits s.replica.locks[k].holders).extractLsb' 0 8,
            s.replica.locks[k].generation, BitVec.ofNat 8 s.replica.locks[k].queue.length]
            ++ s.replica.locks[k].queue.map fun e =>
                (BitVec.ofFin e.station : BitVec 4) ++ BitVec.ofBool (e.mode == .shared) ++ BitVec.ofBool (e.cls == .high)
                  ++ 0#2) s)) ∧
    (Collected [] s → AllGood [.roster, .join] s.ecc →
      exec .lookRoster s =
        .next (answered
          ([0x00, if s.life = .halted then 0x01 else 0x00] ++ rosterBytes s.replica.roster
            ++ (match s.replica.join with
                | some j => [BitVec.ofNat 8 (128 + j.joiner.val), BitVec.ofNat 8 j.source.val]
                | none => [0x00, 0xFF])
            ++ (match s.replica.tag with
                | some g => [BitVec.ofNat 8 (128 + g.founder.val), g.count]
                | none => [0x00, 0x00])
            ++ [match s.replica.interval with
                | some i => intervalCode i
                | none => 0xFF]
            ++ [s.replica.sequence.extractLsb' 8 8, s.replica.sequence.extractLsb' 0 8]) s))

/-- A look that meets an uncorrectable error in any word it reads is answered BAD_STATE. In HALTED only the fault record may
change, to UNCORRECTABLE with the frozen count and no sender; in MEMBER the station takes the fault action. An accepted
in-step table frame whose application meets such a word at a member is abandoned whole: the fault carries the count and the
frame's sender, and the fault action follows. The fault action: with stop-on-fault clear the station is EXCLUDED with reason
UNCORRECTABLE and a cleared replica, with it set it is HALTED with its replica frozen as it was and a FAULT STOP pending. A
look or an application that reads one word with a correctable error has the effect it has with that word good and the
corrected-errors counter advanced by one. The words a look or an application reads are the model's division (log entry 6)
(10 sections 10.2, 10.3 and 10.4, 01 section 1.4, 02 section 2.4, 06 section 6.4). -/
def Obligations.DamagedWordStopsTheMember : Prop :=
  let damaged := fun (words : List StoreWord) (c : StoreCondition) =>
    (∃ w ∈ words, conditionOf w c = .uncorrectable) ∧ ∀ w ∈ words, conditionOf w c ≠ .correctable
  let faultAction := fun (s t : State) =>
    t.config = s.config ∧ t.foundingCount = s.foundingCount ∧ t.inbound = s.inbound ∧ t.counters = s.counters ∧
    t.straps = s.straps ∧ t.tickets = Vector.replicate 16 none ∧ t.hostQueue = [] ∧ t.leases = [] ∧ t.copy = none ∧
    (stopOnFault s = false →
      t.life = .excluded ∧ t.exclusionReason = some .uncorrectable ∧ t.replica = .cleared ∧ t.pendingStop = s.pendingStop ∧
      t.records = .stateChanged (.excluded .uncorrectable) :: (if s.inbound = [] then [] else [.noteArrived])) ∧
    (stopOnFault s = true →
      t.life = .halted ∧ t.haltReason = some .fault ∧ t.replica = s.replica ∧ t.pendingStop = some .fault ∧
      t.records = .stateChanged (.halted .fault) :: (if s.inbound = [] then [] else [.noteArrived]))
  let corrected := fun (w : StoreWord) (s : State) =>
    { s with
      ecc := writeBack w s.ecc, counters := { s.counters with corrected := saturate s.counters.corrected 1 } }
  (∀ (c : Instr) (bytes : List Byte) (words : List StoreWord) (s : State),
     (∃ (k : LockId) (lock : Byte), c = .lookLock lock ∧ lock.toNat = k.val ∧ bytes = [0x09] ∧ words = [.lock k, .queue k]) ∨
       (c = .lookRoster ∧ bytes = [] ∧ words = [.roster, .join]) →
     Collected bytes s →
       (damaged words s.ecc →
         let fault := some (s.fault.getD { kind := .uncorrectable, sequence := s.replica.sequence, sender := none })
         (s.life = .halted → exec c s = .next (answered [0x02] { s with fault := fault })) ∧
         (s.life = .member →
           ∃ t, exec c s = .next t ∧ t.port.response = [0x02] ∧ t.port.phase = .responding ∧ t.fault = fault ∧
             t.round.pointer = s.round.pointer ∧ faultAction s t)) ∧
       (∀ w ∈ words, conditionOf w s.ecc = .correctable → (∀ v ∈ words, v ≠ w → conditionOf v s.ecc = .good) →
         s.life = .member ∨ s.life = .halted → exec c s = exec c (corrected w s))) ∧
  (∀ (f : Frame) (slots : VerdictSlots) (s : State),
     AtVerdict (received f none) s → s.round.inFlight = none → s.life = .member → s.replica.tag = some f.tag →
     isTable f.body = true → (isEntry f.body = true ∨ f.sequence = s.replica.sequence) → Unmarked slots →
       let words := applicationReads s.straps.id f s.replica
       (damaged words s.ecc →
         ∃ t, exec (.verdictWindowClose slots) s = .next t ∧ t.round.pointer = some (f.sender + 1) ∧
           t.fault =
             some (s.fault.getD { kind := .uncorrectable, sequence := s.replica.sequence, sender := some f.sender }) ∧
           faultAction s t) ∧
       (∀ w ∈ words, conditionOf w s.ecc = .correctable → (∀ v ∈ words, v ≠ w → conditionOf v s.ecc = .good) →
         exec (.verdictWindowClose slots) s = exec (.verdictWindowClose slots) (corrected w s)))

/-- FAULTS answers with the fault record and the four counters and changes nothing; CLEAR_FAULTS empties the record and sets
all four counters to 0 and changes nothing else (R186). -/
def Obligations.FaultsAreShownAndCleared : Prop :=
  ∀ s : State, Collected [] s →
    exec .faults s =
      .next (answered
        ([0x00]
          ++ (match s.fault with
              | some f =>
                [faultCode f.kind, f.sequence.extractLsb' 8 8, f.sequence.extractLsb' 0 8,
                 match f.sender with
                 | some i => BitVec.ofNat 8 i.val
                 | none => 0xFF]
              | none => [0x00, 0x00, 0x00, 0xFF])
          ++ [s.counters.vetoesCast.extractLsb' 8 8, s.counters.vetoesCast.extractLsb' 0 8,
              s.counters.ownVoided.extractLsb' 8 8, s.counters.ownVoided.extractLsb' 0 8,
              s.counters.framesDropped.extractLsb' 8 8, s.counters.framesDropped.extractLsb' 0 8,
              s.counters.corrected.extractLsb' 8 8, s.counters.corrected.extractLsb' 0 8]) s) ∧
    exec .clearFaults s =
      .next (answered [0x00]
        { s with fault := none, counters := { vetoesCast := 0, ownVoided := 0, framesDropped := 0, corrected := 0 } })

/-! ### Commands that steer the life cycle -/

/-- START in OFF or EXCLUDED, with an argument of the listed form, replaces the configuration, stops the rejoin timer, sets
both limit counts to 0, ends solo-veto suppression and enters LISTENING: quiet window of four of the new intervals running,
no candidate, no backoff. Pointer, founding count, notes, records, fault record, counters, replica and a pending STOP are
kept (06 section 6.3, 05 section 5.1, 03 section 3.5). -/
def Obligations.StartEntersListening : Prop :=
  ∀ (arg : Byte) (i : Interval) (rejoin stopping : Bool) (s : State),
    Collected [0x02] s → s.life = .off ∨ s.life = .excluded →
    arg = BitVec.ofBool stopping ++ BitVec.ofBool rejoin ++ 0#3 ++ (intervalCode i).extractLsb' 0 3 →
      ∃ round : RoundEngine,
        exec (.start arg) s =
          .next (answered [0x00]
            { s with
              config := some { interval := i, autoRejoin := rejoin, stopOnFault := stopping }, rejoin := none,
              life := .listening, exclusionReason := none, haltReason := none, join := .none, pendingLeave := none,
              listening := { quiet := some (4 * intervalMs i), backoff := none, candidate := none },
              round := round }) ∧
        round.mismatches = 0 ∧ round.soloVetoes = 0 ∧ round.suppressed = false ∧ round.pointer = s.round.pointer ∧
        round.phase = s.round.phase ∧ round.reception = s.round.reception ∧ round.won = s.round.won ∧
        round.requestMark = s.round.requestMark

/-- LEAVE in MEMBER sets a LEAVE pending from the command, or leaves a pending one as it is; STOP sets a HOST STOP pending,
or leaves a pending one as it is; each is answered OK and changes nothing else. LEAVE in a join whose own ENTRY has been
accepted: with the join open and no abort pending a LEAVE is set pending with ending EXCLUDED(LEFT); with an abort pending
its ending becomes EXCLUDED(LEFT); with the LEAVE of the solo-veto limit pending nothing changes; with the ENTRY in flight
the LEAVE waits for its close; otherwise the station is EXCLUDED with reason LEFT at once, its group state cleared, no fault
written and no auto-rejoin. The own LEAVE of a member at its close: one from the command, accepted, excludes the station
with reason LEFT and is not applied; void with VETO it stays pending; one of the solo-veto limit excludes it with reason
SOLO_VETO either way. That a LEAVE in a join stops its timers and discards the catch-up queue as an abort does is the
model's reading (log entry 15), and so is that an abort or a solo-veto LEAVE already pending decides before a join no longer
open does (log entry 38) (09 section 9.4, 10 section 10.1, 05 section 5.6, 04 section 4.7, 03 section 3.5). -/
def Obligations.LeaveAndStopActByState : Prop :=
  let leaves := fun (reason : ExclusionReason) (rejoin : Timer) (s t : State) =>
    t.life = .excluded ∧ t.exclusionReason = some reason ∧ t.join = .none ∧ t.replica = .cleared ∧ t.rejoin = rejoin ∧
    t.pendingLeave = none ∧ t.tickets = Vector.replicate 16 none ∧ t.hostQueue = [] ∧ t.leases = [] ∧ t.fault = s.fault ∧
    t.config = s.config ∧ t.inbound = s.inbound ∧ t.foundingCount = s.foundingCount ∧ t.pendingStop = s.pendingStop ∧
    t.records = .stateChanged (.excluded reason) :: (if s.inbound = [] then [] else [.noteArrived])
  (∀ s : State, Collected [] s →
     (s.life = .member →
       exec .leave s =
         .next (answered [0x00] { s with pendingLeave := some (s.pendingLeave.getD .command) })) ∧
     (s.life = .listening ∨ s.life = .entering ∨ s.life = .copying ∨ s.life = .member ∨ s.life = .excluded →
       exec .stop s = .next (answered [0x00] { s with pendingStop := some (s.pendingStop.getD .host) }))) ∧
  (∀ s : State, Collected [] s → s.life = .entering ∨ s.life = .copying →
     (s.join.entryPending = false → s.pendingLeave = some .soloVeto → exec .leave s = .next (answered [0x00] s)) ∧
     (s.pendingLeave ≠ some .soloVeto →
       (s.join.entryPending = false → s.join.isOpen = true → s.join.abort = none →
         exec .leave s =
           .next (answered [0x00]
             { s with
               pendingLeave := some .abort,
               join := { s.join with abort := some .left, joinTimer := none, stallTimer := none, catchUp := [] } })) ∧
       (∀ e, s.join.entryPending = false → s.join.abort = some e →
         exec .leave s = .next (answered [0x00] { s with join := { s.join with abort := some .left } })) ∧
       (s.join.entryPending = true → sourceInFlight .entry s = true →
         exec .leave s = .next (answered [0x00] { s with join := { s.join with leaveAtEntryClose := true } })) ∧
       ((s.join.entryPending = true ∧ sourceInFlight .entry s = false) ∨
         (s.join.entryPending = false ∧ s.join.isOpen = false ∧ s.join.abort = none) →
         ∃ t, exec .leave s = .next t ∧ t.port.response = [0x00] ∧ leaves .left none s t ∧ t.counters = s.counters ∧
           t.round.pointer = s.round.pointer))) ∧
  (∀ (fl : InFlight) (src : LeaveSource) (slots : VerdictSlots) (s : State),
     AtVerdict (received fl.frame none) s → s.round.inFlight = some fl → fl.offer.source = .leave → fl.discarded = false →
     fl.frame.body = .leave → s.life = .member → s.pendingLeave = some src → (∀ i : StationId, slots[i] ≠ .stale) →
       (src ≠ .soloVeto →
         (Unmarked slots →
           ∃ t, exec (.verdictWindowClose slots) s = .next t ∧ leaves .left none s t ∧ t.counters = s.counters ∧
             t.round.pointer = some (fl.frame.sender + 1)) ∧
         ((∃ i : StationId, slots[i] = .veto) →
           exec (.verdictWindowClose slots) s =
             .next { s with
               counters := { s.counters with ownVoided := saturate s.counters.ownVoided 1 },
               round := roundOver { s.round with soloVetoes := 0 } })) ∧
       (src = .soloVeto → Unmarked slots ∨ (∃ i : StationId, slots[i] = .veto) →
         ∃ t, exec (.verdictWindowClose slots) s = .next t ∧
           leaves .soloVeto (if autoRejoin s = true then some (2 * intervalMs (configInterval s)) else none) s t))

/-- RESTART in HALTED clears the replica, removes a pending STOP, sets both limit counts to 0, ends suppression and enters
LISTENING in the configured interval; configuration, founding count, pointer, notes, records, fault record and counters are
kept (10 section 10.2, 06 section 6.6). -/
def Obligations.RestartEntersListening : Prop :=
  ∀ s : State, Collected [] s → s.life = .halted →
    ∃ round : RoundEngine,
      exec .restart s =
        .next (answered [0x00]
          { s with
            replica := .cleared, ecc := .sound, pendingStop := none, pendingLeave := none, life := .listening,
            exclusionReason := none, haltReason := none, join := .none,
            listening := { quiet := configBeats 4 s, backoff := none, candidate := none }, round := round }) ∧
      round.mismatches = 0 ∧ round.soloVetoes = 0 ∧ round.suppressed = false ∧ round.pointer = s.round.pointer ∧
      round.phase = s.round.phase ∧ round.reception = s.round.reception ∧ round.chosen = none

/-- POWER_ON_RESET gives the state of the reset table with the strap levels latched, whatever came before. SOFT_RESET gives
the same with the fault record and the counters kept, the straps latched again, and its own transaction answered OK. What
reset leaves: OFF, no configuration, founding count 0, pointer unknown, no frame in flight, all limit counts and retry
counts 0, no wait after BUSY, the cleared replica with every lock FREE at generation 0, every timer stopped, every queue and
set empty, all tickets free, fault record and counters cleared. The strap levels of the reset state itself and the model's
own fields are choices (log entries 5 and 29) (06 section 6.7, 09 section 9.1). -/
def Obligations.ResetsGiveTheResetState : Prop :=
  (∀ s : State,
     (∀ pins : Straps, ∃ n : Nat,
       exec (.powerOnReset pins) s =
         .next { State.reset with straps := pins, strapPins := pins, freeCount := n, pending := s.pending }) ∧
     (Collected [] s → ∃ n : Nat,
       exec .softReset s =
         .next (answered [0x00]
           { State.reset with
             straps := s.strapPins, strapPins := s.strapPins, fault := s.fault, counters := s.counters, freeCount := n,
             pending := s.pending }))) ∧
  (State.reset.life = .off ∧ State.reset.config = none ∧ State.reset.foundingCount = 0 ∧
   State.reset.round.pointer = none ∧ State.reset.round.inFlight = none ∧ State.reset.round.mismatches = 0 ∧
   State.reset.round.soloVetoes = 0 ∧ State.reset.round.suppressed = false ∧ State.reset.rejoin = none ∧
   State.reset.pendingLeave = none ∧ State.reset.pendingStop = none ∧ State.reset.replica.tag = none ∧
   State.reset.replica.interval = none ∧ State.reset.replica.sequence = 0 ∧ State.reset.replica.join = none ∧
   (∀ x : StationId, State.reset.replica.roster[x] = .absent) ∧
   (∀ k : LockId, State.reset.replica.locks[k].state = .free ∧ State.reset.replica.locks[k].queue = [] ∧
     State.reset.replica.locks[k].generation = 0 ∧ ∀ x : StationId, has State.reset.replica.locks[k].holders x = false) ∧
   (∀ t : TicketId, State.reset.tickets[t] = none) ∧ State.reset.hostQueue = [] ∧ State.reset.records = [] ∧
   State.reset.inbound = [] ∧ State.reset.hostRetry = .zero ∧ State.reset.copyRetry = .zero ∧ State.reset.busyWait = none ∧
   State.reset.leases = [] ∧ State.reset.declines = [] ∧ State.reset.copy = none ∧
   (∀ k : LockId, has State.reset.expireSet k = false) ∧
   (∀ x : StationId, State.reset.monitor.silence[x] = .none ∧ has State.reset.monitor.pendingEvict x = false) ∧
   State.reset.monitor.beaconTimer = none ∧ State.reset.monitor.beaconDue = false ∧ State.reset.listening = .stopped ∧
   State.reset.join = .none ∧ State.reset.fault = none ∧ State.reset.counters = .zero ∧ State.reset.port.phase = .idle)

/-! ### Rounds up to the verdict mark -/

/-- A station on an idle bus with a frame to offer places the round-start pattern: a normal start with a known pointer, a
resynchronizing start with an unknown one; nothing else changes. A station with nothing to offer places no start. That a
start which cannot happen is a command without effect is the model's reading (log entry 2) (03 sections 3.1 and 3.2). -/
def Obligations.OnlyAnOfferedFrameStartsARound : Prop :=
  ∀ s : State,
    (s.round.phase = .idle → selectOffer s ≠ none →
      (s.round.pointer ≠ none → exec .roundStart s = .next { s with round := { s.round with phase := .started } }) ∧
      (s.round.pointer = none →
        exec .resynchronizingStart s = .next { s with round := { s.round with phase := .started } })) ∧
    (selectOffer s = none → exec .roundStart s = .next s ∧ exec .resynchronizingStart s = .next s) ∧
    (s.round.pointer = none → exec .roundStart s = .next s) ∧
    (s.round.pointer ≠ none → exec .resynchronizingStart s = .next s)

/-- The outbound selector takes the first source present in the order STOP, LEAVE, EVICT of the lowest target, EXPIRE of the
lowest lock, ENTRY, oldest DECLINE, copy cursor, host queue head not waiting after BUSY, due BEACON; outside MEMBER only
those the station's state allows (03 section 3.7, 10 section 10.2). -/
def Obligations.SelectorFollowsItsOrder : Prop :=
  ∀ s : State,
    (s.life = .member →
      (∀ r, s.pendingStop = some r → selectOffer s = some { source := .stop, body := .stop r }) ∧
      (s.pendingStop = none →
        (s.pendingLeave ≠ none → selectOffer s = some { source := .leave, body := .leave }) ∧
        (s.pendingLeave = none →
          (∀ x : StationId, has s.monitor.pendingEvict x = true → (∀ y : StationId, y < x → has s.monitor.pendingEvict y = false) →
            selectOffer s = some { source := .evict, body := .evict x }) ∧
          ((∀ x : StationId, has s.monitor.pendingEvict x = false) →
            (∀ k : LockId, has s.expireSet k = true → (∀ j : LockId, j < k → has s.expireSet j = false) →
              selectOffer s = some { source := .expire, body := .expire k }) ∧
            ((∀ k : LockId, has s.expireSet k = false) →
              (s.join.entryPending = true →
                selectOffer s = some { source := .entry, body := .entry (configInterval s) }) ∧
              (s.join.entryPending = false →
                (∀ d rest, s.declines = d :: rest →
                  selectOffer s = some { source := .decline, body := .decline d.joiner d.reason }) ∧
                (s.declines = [] →
                  (∀ c f rest, s.copy = some c → c.frames = f :: rest →
                    selectOffer s = some { source := .copy, body := copyBody c f }) ∧
                  ((∀ c, s.copy = some c → c.frames = []) →
                    (∀ f rest, s.hostQueue = f :: rest → s.busyWait = none →
                      selectOffer s = some { source := .host (hostTicket f), body := hostBody f }) ∧
                    (s.hostQueue = [] ∨ s.busyWait ≠ none →
                      selectOffer s =
                        if s.monitor.beaconDue then some { source := .beacon, body := .beacon (ownInterval s) }
                        else none))))))))) ∧
    (s.life = .entering ∨ s.life = .copying →
      selectOffer s =
        match s.pendingStop with
        | some r => some { source := .stop, body := .stop r }
        | none =>
          if s.pendingLeave ≠ none then some { source := .leave, body := .leave }
          else if s.join.entryPending then some { source := .entry, body := .entry (configInterval s) }
          else none) ∧
    (s.life = .listening ∨ s.life = .excluded →
      selectOffer s = s.pendingStop.map fun r => { source := .stop, body := .stop r }) ∧
    (s.life = .halted →
      selectOffer s = if s.pendingStop = some .fault then some { source := .stop, body := .stop .fault } else none) ∧
    (s.life = .off → selectOffer s = none)

/-- At the opening of a request window the selector's choice is made, and with a known pointer the request mark is placed:
EXPEDITED for STOP, LEAVE, EVICT, EXPIRE, YIELD and RECALL, ORDINARY for the other kinds, none with an unknown pointer or
nothing to offer. Nothing else changes when no word of a chosen copy frame is damaged. The words a copy frame is built from
are the model's division (log entry 6) (03 sections 3.2 and 3.7). -/
def Obligations.RequestWindowOpensWithTheChoice : Prop :=
  ∀ s : State, s.life ≠ .off → s.round.phase = .idle ∨ s.round.phase = .started ∨ s.round.phase = .between →
    (∀ c f rest, s.copy = some c → c.frames = f :: rest → AllGood (copyReads f) c.ecc) →
      exec .requestWindowOpen s =
        .next { s with round := { s.round with
          phase := .request, chosen := selectOffer s, won := false, reception := none,
          requestMark :=
            if s.round.pointer = none then none
            else
              (selectOffer s).map fun o =>
                match o.body with
                | .stop _ | .leave | .evict _ | .expire _ | .yield _ _ | .recall _ _ _ => .expedited
                | _ => .ordinary } }

/-- The winner is the first EXPEDITED slot in the count upward from the pointer, wrapping from 15 to 0, and where no slot is
EXPEDITED the first ORDINARY one; with a request in the window there is always a winner. A station that computes itself as
winner transmits its chosen frame; one that computes another, or whose pointer is unknown, transmits nothing and goes on to
the frame part (R56). -/
def Obligations.WinnerIsFirstInTheCount : Prop :=
  ∀ (p : StationId) (slots : RequestSlots),
    (∀ i : StationId,
      winner p slots = some i ↔
        (slots[i] = .expedited ∧ ∀ j : StationId, slots[j] = .expedited → (i - p).val ≤ (j - p).val) ∨
        ((∀ j : StationId, slots[j] ≠ .expedited) ∧ slots[i] = .ordinary ∧
          ∀ j : StationId, slots[j] = .ordinary → (i - p).val ≤ (j - p).val)) ∧
    ((∃ i : StationId, slots[i] ≠ .empty) → (winner p slots).isSome = true) ∧
    (∀ s : State, s.round.phase = .request → (∃ i : StationId, slots[i] ≠ .empty) →
      ((s.round.pointer = none ∨ (s.round.pointer = some p ∧ winner p slots ≠ some s.straps.id)) →
        exec (.requestWindowClose slots) s =
          .next { s with round := { s.round with phase := .frame, won := false, inFlight := none } }) ∧
      (∀ o, s.round.pointer = some p → winner p slots = some s.straps.id → s.round.chosen = some o →
        stillOffered o s = true →
        ∃ fl, fl.offer = o ∧ fl.frame.body = o.body ∧ fl.frame.sender = s.straps.id ∧ fl.bytes = frameBytes fl.frame ∧
          exec (.requestWindowClose slots) s =
            .next { s with round := { s.round with phase := .frame, won := true, inFlight := some fl } }))

/-- At the close of a request window with a request: a station that computes itself as winner transmits the frame it chose,
if the frame still stands at its source, with its own ID, the header fields of its state and the chosen body; every other
station, and one whose pointer is unknown, transmits nothing. Nothing else changes. A request window that closes empty
leaves the pointer 0 and known and the bus idle; nothing else changes (03 sections 3.1, 3.2 and 3.7, 02 section 2.5). -/
def Obligations.RequestWindowClosesWithOrWithoutAWinner : Prop :=
  (∀ (slots : RequestSlots) (s : State), s.round.phase = .request → (∃ i : StationId, slots[i] ≠ .empty) →
     (∀ p o, s.round.pointer = some p → winner p slots = some s.straps.id → s.round.chosen = some o →
       stillOffered o s = true →
         ∃ f : Frame,
           f.sender = s.straps.id ∧ f.body = o.body ∧
           (∀ g, s.life = .member → s.replica.tag = some g → f.tag = g ∧ f.sequence = s.replica.sequence) ∧
           (∀ g, s.life = .entering ∨ s.life = .copying → s.join.target = some g →
             f.tag = g ∧ f.sequence = if isEntry o.body then 0 else s.join.tracked.getD 0) ∧
           (s.life = .listening ∨ s.life = .excluded ∨ s.life = .halted →
             f.tag = { founder := s.straps.id, count := s.foundingCount } ∧ f.sequence = 0) ∧
           exec (.requestWindowClose slots) s =
             .next { s with round := { s.round with
               phase := .frame, won := true,
               inFlight := some { offer := o, frame := f, bytes := frameBytes f, discarded := false } } }) ∧
     (∀ p, s.round.pointer = some p → winner p slots = some s.straps.id →
       (∀ o, s.round.chosen = some o → stillOffered o s = false) →
         exec (.requestWindowClose slots) s =
           .next { s with round := { s.round with phase := .frame, won := true, inFlight := none } }) ∧
     ((∀ p, s.round.pointer = some p → winner p slots ≠ some s.straps.id) →
         exec (.requestWindowClose slots) s =
           .next { s with round := { s.round with phase := .frame, won := false, inFlight := none } })) ∧
  (∀ s : State, s.round.phase = .request →
     exec .emptyRequestWindow s =
       .next { s with round := { s.round with
         phase := .idle, pointer := some 0, chosen := none, requestMark := none, won := false } })

/-- The mark of an observer, line by line: VETO on what is not a well-formed frame, unless in solo-veto suppression; VETO on
a frame with the observer's own ID; STALE from a member on a frame of its group behind its count; none on one ahead; TAKEN
or BUSY on a NOTE to it from its own group or without a group; none in any other case; none at all in HALTED. The mark
changes nothing but the round. That a station in HALTED finds no duplicate in a frame with its own ID is the model's reading
(log entry 42) (02 sections 2.3, 2.5 and 2.6, 08 section 8.2, 03 sections 3.4 and 3.5). -/
def Obligations.ObserverMarksTheFrame : Prop :=
  ∀ (line : List Byte) (s : State), s.round.phase = .frame → s.round.inFlight = none → s.life ≠ .off →
    let marked := fun (r : Reception) =>
      exec (.frameReceived line) s =
        .next { s with round := { s.round with phase := .verdict, reception := some r } }
    (frameOf line = none → s.life ≠ .halted → s.round.suppressed = false → marked (unreceived (line != []))) ∧
    (frameOf line = none → s.life = .halted ∨ s.round.suppressed = true →
      marked { unreceived (line != []) with vetoLine2 := false, halted := s.life == .halted, mark := none }) ∧
    (∀ f, frameOf line = some f →
      (s.life = .halted → marked (receivedIn true f none)) ∧
      (s.life ≠ .halted → f.sender = s.straps.id → marked { received f (some .veto) with duplicate := true }) ∧
      (s.life ≠ .halted → f.sender ≠ s.straps.id →
        (s.life = .member → s.replica.tag = some f.tag → comparedKind f.body = true →
          32768 ≤ (f.sequence - s.replica.sequence).toNat → marked (received f (some .stale))) ∧
        (s.life = .member → s.replica.tag = some f.tag → comparedKind f.body = true →
          1 ≤ (f.sequence - s.replica.sequence).toNat → (f.sequence - s.replica.sequence).toNat ≤ 32767 →
            marked (received f none)) ∧
        (∀ topic payload, f.body = .note s.straps.id topic payload →
          (s.life = .member → s.replica.tag = some f.tag → f.sequence = s.replica.sequence →
            marked (received f (some (if s.inbound.length < 8 then .taken else .busy)))) ∧
          (s.life = .member → s.replica.tag ≠ some f.tag → marked (received f none)) ∧
          (s.life = .entering ∨ s.life = .copying →
            marked (received f (if s.join.target = some f.tag then some .busy else none))) ∧
          (s.life = .listening ∨ s.life = .excluded → marked (received f (some .busy)))) ∧
        ((∀ dest topic payload, f.body = .note dest topic payload → dest ≠ s.straps.id) →
          s.life ≠ .member ∨ s.replica.tag ≠ some f.tag ∨ comparedKind f.body = false ∨
            f.sequence = s.replica.sequence → marked (received f none))))

/-- The transmitter reads its own frame back: a match sets the readback-mismatch count to 0 and leaves the slot empty; a
mismatch adds 1 and marks VETO, except in HALTED; the close at which the limit acts is the one after the count reached 4.
That solo-veto suppression does not withhold the mark of a mismatch is the model's reading (log entry 11), and so is the
limit acting as the count becomes exactly 4 (log entry 12) (03 sections 3.3 and 3.4). -/
def Obligations.TransmitterReadsItsFrameBack : Prop :=
  ∀ (line : List Byte) (fl : InFlight) (s : State), s.round.phase = .frame → s.round.inFlight = some fl → s.life ≠ .off →
    (∀ f, line = fl.bytes → frameOf line = some f →
      exec (.frameReceived line) s =
        .next { s with round := { s.round with
          phase := .verdict, reception := some (receivedIn (s.life == .halted) f none), mismatches := 0 } }) ∧
    (line ≠ fl.bytes →
      exec (.frameReceived line) s =
        .next { s with round := { s.round with
          phase := .verdict,
          reception := some
            { misreadIn (s.life == .halted) (frameOf line) (if s.life = .halted then none else some .veto)
                (s.round.mismatches == 3) with
              carried := line != [],
              vetoLine2 := (frameOf line == none) && (s.life != .halted) && !s.round.suppressed },
          mismatches := s.round.mismatches + 1 } })

/-! ### The verdict and the close -/

/-- A frame is clean when no slot holds VETO. It is accepted when no slot holds VETO, none holds STALE and, for a NOTE, its
destination's slot holds TAKEN; any other frame is void, with the class of the first line that applies: VETO, STALE, BUSY,
NO_ANSWER (02 section 2.3). -/
def Obligations.VerdictFollowsTheMarks : Prop :=
  ∀ (body : Body) (slots : VerdictSlots),
    (clean slots = true ↔ ∀ i : StationId, slots[i] ≠ .veto) ∧
    (verdictOf body slots = .accepted ↔
      (∀ i : StationId, slots[i] ≠ .veto) ∧ (∀ i : StationId, slots[i] ≠ .stale) ∧
        ∀ dest topic payload, body = .note dest topic payload → slots[dest] = .taken) ∧
    (verdictOf body slots = .void .veto ↔ ∃ i : StationId, slots[i] = .veto) ∧
    (verdictOf body slots = .void .stale ↔ (∀ i : StationId, slots[i] ≠ .veto) ∧ ∃ i : StationId, slots[i] = .stale) ∧
    (verdictOf body slots = .void .busy ↔
      (∀ i : StationId, slots[i] ≠ .veto ∧ slots[i] ≠ .stale) ∧
        ∃ dest topic payload, body = .note dest topic payload ∧ slots[dest] = .busy) ∧
    (verdictOf body slots = .void .noAnswer ↔
      (∀ i : StationId, slots[i] ≠ .veto ∧ slots[i] ≠ .stale) ∧
        ∃ dest topic payload, body = .note dest topic payload ∧ slots[dest] = .empty)

/-- A tag with the lower founder ID ranks higher; of two tags with one founder the higher count does, counts compared as
plain numbers. Of two different tags exactly one ranks higher, tags with equal founder and count are the same tag, and a
frame with a station's own group tag or target tag is not foreign to it (R101). -/
def Obligations.TagsAreRankedInAFixedOrder : Prop :=
  ∀ a b : GroupTag,
    (ranksHigher a b = true ↔
      a.founder.val < b.founder.val ∨ (a.founder = b.founder ∧ b.count.toNat < a.count.toNat)) ∧
    (a ≠ b → ranksHigher a b = !ranksHigher b a) ∧ ranksHigher a a = false ∧
    (a.founder = b.founder → a.count = b.count → a = b) ∧
    (∀ (f : Frame) (s : State), f.tag = a →
      (s.life = .member → s.replica.tag = some a → foreign f s = false) ∧
      (s.life = .entering ∨ s.life = .copying → s.join.target = some a → foreign f s = false))

/-- A member that observes the acceptance of another station's in-step table frame, with no word it reads damaged and not
itself evicted, applies it to its replica and advances its sequence by one; the pointer becomes the sender's ID plus 1, the
solo-veto count 0, and configuration, state, port, straps, counters, notes, fault record, pending STOP and LEAVE, storage
and founding count are unchanged. An ENTRY withdraws a DECLINE pending for its sender; the answering member queues its own
DECLINE at the tail, or takes the shadow as the application left the replica and loads the cursor with COPY_ROSTER, one
COPY_LOCK for each lock that differs from the founding record, and the ADMIT; an application that touches the standing of a
copy's joiner ends that copy. The words an application reads are the model's division (log entry 6) (02 sections 2.4 and
2.5, 03 sections 3.2 and 3.5, 05 sections 5.3 and 5.4). -/
def Obligations.MemberAppliesAnAcceptedTableFrame : Prop :=
  ∀ (f : Frame) (slots : VerdictSlots) (s : State),
    AtVerdict (received f none) s → s.round.inFlight = none → s.life = .member → s.replica.tag = some f.tag →
    isTable f.body = true → (isEntry f.body = true ∨ f.sequence = s.replica.sequence) → Unmarked slots →
    AllGood (applicationReads s.straps.id f s.replica) s.ecc → evictsSelf f s = false →
      let applied := applyFrame f s.replica
      let copied := allLocks.filter fun k => applied.replica.locks[k] != .founding
      ∃ t, exec (.verdictWindowClose slots) s = .next t ∧
        t.replica = applied.replica ∧ t.replica.sequence = s.replica.sequence + 1 ∧
        t.round = roundOver { s.round with pointer := some (f.sender + 1), soloVetoes := 0 } ∧
        t.life = .member ∧ t.config = s.config ∧ t.port = s.port ∧ t.straps = s.straps ∧ t.counters = s.counters ∧
        t.inbound = s.inbound ∧ t.fault = s.fault ∧ t.pendingStop = s.pendingStop ∧ t.pendingLeave = s.pendingLeave ∧
        t.ecc = s.ecc ∧ t.foundingCount = s.foundingCount ∧ t.join = s.join ∧ t.listening = s.listening ∧
        t.rejoin = s.rejoin ∧
        t.declines =
          (if isEntry f.body then s.declines.filter fun d => d.joiner != f.sender else s.declines) ++
            (match applied.entry with
              | some (.declined m j reason) => if m = s.straps.id then [{ joiner := j, reason := reason }] else []
              | _ => []) ∧
        (∀ j, applied.entry = some (.opened s.straps.id j) →
          t.copyRetry = .zero ∧
          t.copy =
            some
              { joiner := j, shadow := applied.replica, ecc := .sound,
                frames := .roster :: copied.map .lock ++ [.admission copied.length] }) ∧
        ((∀ j, applied.entry ≠ some (.opened s.straps.id j)) →
          (∀ c, s.copy = some c → (∃ x ∈ applied.changes, x.id = c.joiner) → t.copy = none ∧ t.copyRetry = .zero) ∧
          ((∀ c, s.copy = some c → ∀ x ∈ applied.changes, x.id ≠ c.joiner) →
            t.copy = s.copy ∧ t.copyRetry = s.copyRetry))

/-- A station's own CLAIM of a FREE lock with an empty queue, accepted: it holds the lock in the mode claimed at the next
generation, GRANTED with that generation is made under the ticket, now RECORDED, a lease reserved under it starts RUNNING
with its units, the frame leaves the queue with its counts, and the own beacon timer restarts with no BEACON due. The words
an application reads are the model's division (log entry 6) (01 section 1.5, 07 section 7.2, 09 section 9.2, 04 section
4.2). -/
def Obligations.OwnClaimIsGrantedAtItsClose : Prop :=
  ∀ (k : LockId) (m : Mode) (c : ClaimClass) (form : Form) (tk : TicketId) (f : Frame) (bytes : List Byte) (rest : List HostFrame)
    (slots : VerdictSlots) (s : State),
    AtVerdict (received f none) s → f.sender = s.straps.id → f.body = .claim k m c form tk →
    s.round.inFlight =
      some { offer := { source := .host tk, body := .claim k m c form tk }, frame := f, bytes := bytes, discarded := false } →
    s.life = .member → s.replica.tag = some f.tag → s.replica.roster[s.straps.id] = .full → Unmarked slots →
    s.hostQueue = .claim k m c form tk :: rest → (∀ d tp p t, rest.head? ≠ some (.note d tp p t)) →
    s.tickets[tk] = some { kind := .claim k, place := .queued } →
    s.replica.locks[k].state = .free → s.replica.locks[k].queue = [] → s.replica.locks[k].holders = noIds →
    AllGood (applicationReads s.straps.id f s.replica) s.ecc →
      ∃ t, exec (.verdictWindowClose slots) s = .next t ∧
        t.replica.locks[k].holders = addTo noIds s.straps.id ∧
        t.replica.locks[k].state = (match m with | .sole => .sole | .shared => .shared) ∧
        t.replica.locks[k].generation = s.replica.locks[k].generation + 1 ∧ t.replica.locks[k].queue = [] ∧
        (∀ j : LockId, j ≠ k → t.replica.locks[j] = s.replica.locks[j]) ∧
        t.replica.sequence = s.replica.sequence + 1 ∧ t.replica.roster = s.replica.roster ∧
        t.records = s.records ++ [.granted tk k (s.replica.locks[k].generation + 1)] ∧
        t.tickets = put s.tickets tk (some { kind := .claim k, place := .recorded }) ∧
        t.hostQueue = rest ∧ t.hostRetry = .zero ∧
        t.leases = s.leases.map (fun l =>
          match l with
          | .reserved j u t' => if t' = tk then .running j u else l
          | _ => l) ∧
        t.monitor.beaconTimer = some (intervalMs (ownInterval s)) ∧ t.monitor.beaconDue = false ∧
        t.round = roundOver { s.round with pointer := some (s.straps.id + 1), soloVetoes := 0 } ∧
        t.counters = s.counters ∧ t.inbound = s.inbound ∧ t.fault = s.fault ∧ t.config = s.config ∧ t.life = .member

/-- A frame received whole but voided by another station's VETO changes nothing at an observer but the round: the pointer
stays, and the solo-veto count becomes 0, also where the station has been halted since, except where it was in HALTED as it
received the frame. An observer that placed VETO on line 2 counts a veto cast; its solo-veto count grows by 1 where no other
slot holds VETO, and becomes 0 where one does; the pointer stays if the round carried a frame and becomes unknown if it
carried none; nothing else changes short of the solo-veto limit. That a station that received the frame in HALTED keeps its
solo-veto count is the model's reading (log entry 10) (02 section 2.3, 03 sections 3.2, 3.3 and 3.5). -/
def Obligations.VoidedFrameMovesOnlyTheRoundAndCounts : Prop :=
  (∀ (halted : Bool) (f : Frame) (mark : Option VerdictMark) (slots : VerdictSlots) (s : State),
     AtVerdict (receivedIn halted f mark) s → mark ≠ some .veto → s.round.inFlight = none →
     (∃ i : StationId, slots[i] = .veto) →
       exec (.verdictWindowClose slots) s =
         .next
           { s with
             round := roundOver { s.round with soloVetoes := if halted then s.round.soloVetoes else 0 } }) ∧
  (∀ (carried : Bool) (slots : VerdictSlots) (s : State),
     AtVerdict (unreceived carried) s → s.round.inFlight = none → s.round.won = false → slots[s.straps.id] = .veto →
     ((∃ i : StationId, i ≠ s.straps.id ∧ slots[i] = .veto) ∨ s.round.soloVetoes + 1 < 4) →
       ∃ n : Nat,
         ((∃ i : StationId, i ≠ s.straps.id ∧ slots[i] = .veto) → n = 0) ∧
         ((∀ i : StationId, i ≠ s.straps.id → slots[i] ≠ .veto) → n = s.round.soloVetoes + 1) ∧
         exec (.verdictWindowClose slots) s =
           .next { s with
             counters := { s.counters with vetoesCast := saturate s.counters.vetoesCast 1 },
             round :=
               roundOver { s.round with pointer := if carried then s.round.pointer else none, soloVetoes := n } })

/-- An accepted in-step NOTE to this station, which it marked TAKEN, joins the tail of its inbound queue with sender, topic
and payload, and NOTE_ARRIVED is made unless one stands unread; no replica changes (08 sections 8.2 and 8.4, 09 section 9.5,
04 sections 4.3 and 4.4). -/
def Obligations.AcceptedNoteIsStored : Prop :=
  ∀ (f : Frame) (topic : Fin 16) (payload : List Byte) (slots : VerdictSlots) (s : State),
    AtVerdict (received f (some .taken)) s → s.round.inFlight = none → f.body = .note s.straps.id topic payload →
    s.life = .member → s.replica.tag = some f.tag → f.sequence = s.replica.sequence → f.sender ≠ s.straps.id →
    slots[s.straps.id] = .taken → Unmarked slots → s.inbound.length < 8 →
      ∃ monitor : RosterMonitor,
        exec (.verdictWindowClose slots) s =
          .next { s with
            inbound := s.inbound ++ [{ sender := f.sender, topic := topic, payload := payload }],
            records := if .noteArrived ∈ s.records then s.records else s.records ++ [.noteArrived],
            monitor := monitor,
            round := roundOver { s.round with pointer := some (f.sender + 1), soloVetoes := 0 } } ∧
        monitor.beaconTimer = s.monitor.beaconTimer ∧ monitor.beaconDue = s.monitor.beaconDue ∧
        monitor.pendingEvict = dropFrom s.monitor.pendingEvict f.sender ∧
        (s.monitor.silence[f.sender] = .none → monitor.silence = s.monitor.silence) ∧
        (s.monitor.silence[f.sender] ≠ .none →
          monitor.silence = put s.monitor.silence f.sender (.running (3 * intervalMs (ownInterval s))))

/-- A sender in MEMBER, ENTERING or COPYING that observes STALE on its own frame records STALE with its count and its own ID
and excludes itself with reason STALE, even where a VETO stands in the window too; the replica is cleared and the
own-frames-voided counter advances. A member that finds a frame of its group 1 to 32767 ahead of its count marks nothing,
and at a close without VETO records MISSED with its own count and the frame's sender and excludes itself with reason MISSED,
without applying the frame. A member that accepts an in-step EVICT of itself from a FULL sender records EVICTED with its own
count and that sender and excludes itself with reason EVICTED, without applying the frame, whatever the lock table's words
hold. That STALE decides where a solo-veto LEAVE or a withdrawn ENTRY ends at the same close is the model's reading (log
entry 13). That the EVICT of the station itself reads the roster alone is the model's division (log entry 6) (02 section
2.5, 06 section 6.4, 03 section 3.3, 04 section 4.6). -/
def Obligations.StaleMissedAndEvictedStationsExcludeThemselves : Prop :=
  (∀ (fl : InFlight) (slots : VerdictSlots) (s : State),
     AtVerdict (received fl.frame none) s → s.round.inFlight = some fl → (∃ i : StationId, slots[i] = .stale) →
     s.life = .member ∨ s.life = .entering ∨ s.life = .copying → s.ecc.roster = .good →
       ∃ t, exec (.verdictWindowClose slots) s = .next t ∧ t.life = .excluded ∧ t.exclusionReason = some .stale ∧
         t.replica = .cleared ∧ t.tickets = Vector.replicate 16 none ∧ t.hostQueue = [] ∧
         t.counters.ownVoided = saturate s.counters.ownVoided 1 ∧
         t.fault =
           some (s.fault.getD { kind := .stale, sequence := ownCount s, sender := some s.straps.id }) ∧
         t.records = .stateChanged (.excluded .stale) :: (if s.inbound = [] then [] else [.noteArrived]) ∧
         t.config = s.config ∧ t.inbound = s.inbound ∧ t.pendingStop = s.pendingStop ∧ t.straps = s.straps) ∧
  (∀ (f : Frame) (slots : VerdictSlots) (s : State),
     AtVerdict (received f none) s → s.round.inFlight = none → s.life = .member → s.replica.tag = some f.tag →
     comparedKind f.body = true → 1 ≤ (f.sequence - s.replica.sequence).toNat →
     (f.sequence - s.replica.sequence).toNat ≤ 32767 → (∀ i : StationId, slots[i] ≠ .veto) →
       ∃ t, exec (.verdictWindowClose slots) s = .next t ∧ t.life = .excluded ∧ t.exclusionReason = some .missed ∧
         t.replica = .cleared ∧
         t.fault = some (s.fault.getD { kind := .missed, sequence := s.replica.sequence, sender := some f.sender }) ∧
         t.round.pointer = some (f.sender + 1) ∧ t.counters = s.counters ∧ t.config = s.config ∧ t.inbound = s.inbound ∧
         t.foundingCount = s.foundingCount ∧ t.pendingStop = s.pendingStop) ∧
  (∀ (f : Frame) (slots : VerdictSlots) (s : State),
     AtVerdict (received f none) s → s.round.inFlight = none → s.life = .member → s.replica.tag = some f.tag →
     f.body = .evict s.straps.id → f.sequence = s.replica.sequence → s.replica.roster[f.sender] = .full →
     Unmarked slots → s.ecc.roster = .good →
       ∃ t, exec (.verdictWindowClose slots) s = .next t ∧ t.life = .excluded ∧ t.exclusionReason = some .evicted ∧
         t.replica = .cleared ∧ t.tickets = Vector.replicate 16 none ∧ t.hostQueue = [] ∧ t.leases = [] ∧
         t.fault = some (s.fault.getD { kind := .evicted, sequence := s.replica.sequence, sender := some f.sender }) ∧
         t.records = .stateChanged (.excluded .evicted) :: (if s.inbound = [] then [] else [.noteArrived]) ∧
         t.rejoin = (if autoRejoin s = true then some (2 * intervalMs (configInterval s)) else none) ∧
         t.round.pointer = some (f.sender + 1) ∧ t.counters = s.counters ∧ t.config = s.config ∧ t.inbound = s.inbound ∧
         t.foundingCount = s.foundingCount ∧ t.pendingStop = s.pendingStop)

/-- A clean foreign frame other than ENTRY and STOP: where its group ranks higher the member or joiner records GROUP with
its count and the sender and excludes itself with reason GROUP; where it ranks lower only the round moves on (05 section
5.2, 02 section 2.6, 06 section 6.4). -/
def Obligations.HigherGroupExcludesTheStation : Prop :=
  ∀ (f : Frame) (g : GroupTag) (slots : VerdictSlots) (s : State),
    AtVerdict (received f none) s → s.round.inFlight = none → comparedKind f.body = true → f.tag ≠ g →
    (∀ i : StationId, slots[i] ≠ .veto) →
    (s.life = .member ∧ s.replica.tag = some g) ∨ ((s.life = .entering ∨ s.life = .copying) ∧ s.join.target = some g) →
      (ranksHigher f.tag g = true →
        ∃ t, exec (.verdictWindowClose slots) s = .next t ∧ t.life = .excluded ∧ t.exclusionReason = some .group ∧
          t.replica = .cleared ∧ t.join = .none ∧
          t.fault = some (s.fault.getD { kind := .group, sequence := ownCount s, sender := some f.sender }) ∧
          t.round.pointer = some (f.sender + 1) ∧ t.counters = s.counters ∧ t.config = s.config ∧ t.inbound = s.inbound) ∧
      (ranksHigher f.tag g = false →
        exec (.verdictWindowClose slots) s =
          .next { s with round := roundOver { s.round with pointer := some (f.sender + 1), soloVetoes := 0 } })

/-- An accepted STOP, another station's or the sender's own, puts every station that observes it and is not in OFF or HALTED
into HALTED with the STOP's reason: the replica is frozen as it stands, the host queue and tickets are flushed without
records, the records become STATE_CHANGED and, with a note held, NOTE_ARRIVED, and no STOP stays pending; configuration,
founding count, notes, fault record and counters are kept. That holds also of a station whose own STOP stayed in flight
while RESTART took it out of HALTED, and whether or not its readback of it in HALTED matched; a mismatch leaves the pointer
unknown. In HALTED only the round moves on, and the station's own STOP leaves its source. That a station that received the
frame in HALTED keeps its solo-veto count is the model's reading (log entry 10), and so are that the outcome of a frame
misread there follows the slots (log entry 27) and that a STOP with the own ID observed there sets the pointer like any
other (log entry 42) (10 sections 10.1 and 10.2, 06 section 6.6, 02 section 2.4, 03 section 3.4). -/
def Obligations.AcceptedStopHalts : Prop :=
  ∀ (reason : StopReason) (slots : VerdictSlots) (s : State), Unmarked slots →
    let halts := fun pointer : Option StationId =>
      ∃ t, exec (.verdictWindowClose slots) s = .next t ∧ t.life = .halted ∧ t.haltReason = some reason ∧
        t.replica = s.replica ∧ t.ecc = s.ecc ∧ t.tickets = Vector.replicate 16 none ∧ t.hostQueue = [] ∧
        t.leases = [] ∧ t.expireSet = noLocks ∧ t.monitor = .stopped ∧ t.listening = .stopped ∧ t.join = .none ∧
        t.declines = [] ∧ t.copy = none ∧ t.pendingStop = none ∧ t.pendingLeave = none ∧ t.rejoin = none ∧
        t.records = .stateChanged (.halted reason) :: (if s.inbound = [] then [] else [.noteArrived]) ∧
        t.config = s.config ∧ t.foundingCount = s.foundingCount ∧ t.inbound = s.inbound ∧ t.fault = s.fault ∧
        t.counters = s.counters ∧ t.round.pointer = pointer ∧ t.round.mismatches = s.round.mismatches
    (∀ (before : Bool) (f : Frame), AtVerdict (receivedIn before f none) s → f.body = .stop reason →
      (s.life ≠ .off → s.life ≠ .halted →
        (s.round.inFlight = none ∨ ∃ fl, s.round.inFlight = some fl ∧ fl.frame = f ∧ fl.offer.source = .stop) →
          halts (some (f.sender + 1))) ∧
      (s.life = .halted →
        (s.round.inFlight = none →
          exec (.verdictWindowClose slots) s =
            .next { s with round := roundOver { s.round with
              pointer := some (f.sender + 1), soloVetoes := if before then s.round.soloVetoes else 0 } }) ∧
        (∀ fl, s.round.inFlight = some fl → fl.frame = f → fl.offer.source = .stop → fl.discarded = false →
          exec (.verdictWindowClose slots) s =
            .next { s with
              pendingStop := none,
              round := roundOver { s.round with
                pointer := some (f.sender + 1), soloVetoes := if before then s.round.soloVetoes else 0 } }))) ∧
    (∀ (before : Bool) (line : Option Frame) (fl : InFlight), AtVerdict (misreadIn before line none false) s → s.round.inFlight = some fl →
      fl.frame.body = .stop reason → fl.offer.source = .stop →
      (s.life ≠ .off → s.life ≠ .halted → halts none) ∧
      (s.life = .halted → fl.discarded = false →
        exec (.verdictWindowClose slots) s =
          .next { s with pendingStop := none, round := roundOver { s.round with pointer := none } }))

/-! ### The joiner -/

/-- The acceptance of a joiner's own ENTRY clears the pending ENTRY, opens the join, starts the join timer for four of the
configured intervals, begins an empty catch-up and raises the tracked count by one. A COPY_ROSTER naming a station in
ENTERING, its join open and no abort pending, is kept as the start of the received copy with its sender as copy source; the
join timer stops, the stall timer starts for sixteen intervals, and the station is in COPYING. A COPY_LOCK from the copy
source in COPYING is recorded and restarts the stall timer (05 section 5.5, 02 section 2.5). -/
def Obligations.JoinerOpensItsJoinAndReceivesTheCopy : Prop :=
  (∀ (i : Interval) (fl : InFlight) (slots : VerdictSlots) (s : State),
     AtVerdict (received fl.frame none) s → s.round.inFlight = some fl → fl.offer = { source := .entry, body := .entry i } →
     fl.discarded = false → fl.frame.body = .entry i → s.life = .entering → s.join.target = some fl.frame.tag →
     s.join.leaveAtEntryClose = false → Unmarked slots →
       exec (.verdictWindowClose slots) s =
         .next { s with
           join := { s.join with
             entryPending := false, isOpen := true, joinTimer := configBeats 4 s, catchUp := [], catchUpCount := 0,
             tracked := s.join.tracked.map (· + 1), leaveAtEntryClose := false },
           round := roundOver { s.round with pointer := some (fl.frame.sender + 1), soloVetoes := 0 } }) ∧
  (∀ (f : Frame) (slots : VerdictSlots) (s : State),
     AtVerdict (received f none) s → s.round.inFlight = none → s.join.target = some f.tag → s.join.abort = none →
     Unmarked slots →
       (∀ copy, f.body = .copyRoster s.straps.id copy → s.life = .entering → s.join.isOpen = true →
         exec (.verdictWindowClose slots) s =
           .next { s with
             life := .copying,
             join := { s.join with
               source := some f.sender, rosterCopy := some copy, joinTimer := none, stallTimer := configBeats 16 s,
               tracked := some (copy.cut + s.join.catchUpCount) },
             round := roundOver { s.round with pointer := some (f.sender + 1), soloVetoes := 0 } }) ∧
       (∀ k record copy, f.body = .copyLock k record → s.life = .copying → s.join.source = some f.sender →
         s.join.rosterCopy = some copy →
         exec (.verdictWindowClose slots) s =
           .next { s with
             join := { s.join with
               lockCopies := put s.join.lockCopies k (some record), stallTimer := configBeats 16 s,
               tracked := some (copy.cut + s.join.catchUpCount) },
             round := roundOver { s.round with pointer := some (f.sender + 1), soloVetoes := 0 } }))

/-- An accepted ADMIT naming a station in COPYING whose three checks pass, no word that install reads damaged and no damage
coming after its writes: the copy is installed with the station PENDING, the catch-up frames are applied in their order and
the ADMIT after them; the station is a MEMBER with its join state cleared, its own beacon timer and one silence timer for
each other FULL ID running, every word of its storage is sound, and STATE_CHANGED(MEMBER, ADMITTED) is made. A correctable
error in one word that install reads is corrected and counted, and nothing else differs. An uncorrectable word abandons the
install with the fault action, the tracked count and a cleared replica: one that install itself reads records no sender, one
that the first catch-up frame's application reads records that frame's sender. The words install and the applications read,
and that an abandoned install writes the whole cleared replica, are the model's choices (log entries 6 and 9), and so is the
field that holds the damage that comes between the writes of install and the reads of the applications (log entry 40) (05
section 5.5, 01 section 1.11, 04 section 4.1, 10 sections 10.3 and 10.4, 06 section 6.4). -/
def Obligations.AdmissionInstallsTheCopy : Prop :=
  ∀ (f : Frame) (n : Nat) (copy : RosterCopy) (slots : VerdictSlots) (s : State),
    AtVerdict (received f none) s → s.round.inFlight = none → f.body = .admission s.straps.id n →
    s.join.target = some f.tag → s.life = .copying → s.join.abort = none → s.join.rosterCopy = some copy →
    locksRecorded s = n → copy.cut + s.join.catchUpCount = f.sequence → Unmarked slots →
      let copied : Replica :=
        { tag := some f.tag, interval := some copy.interval, sequence := copy.cut,
          join := s.join.source.map fun m => { joiner := s.straps.id, source := m },
          roster := put copy.roster s.straps.id .pending,
          locks := Vector.ofFn fun k => (s.join.lockCopies[k]).getD .founding }
      let damaged := fun (words : List StoreWord) (c : StoreCondition) =>
        (∃ w ∈ words, conditionOf w c = .uncorrectable) ∧ ∀ w ∈ words, conditionOf w c ≠ .correctable
      let abandoned := fun sender : Option StationId =>
        ∃ t, exec (.verdictWindowClose slots) s = .next t ∧ t.join = .none ∧ t.counters = s.counters ∧
          t.config = s.config ∧ t.inbound = s.inbound ∧
          t.fault = some (s.fault.getD { kind := .uncorrectable, sequence := s.join.tracked.getD 0, sender := sender }) ∧
          (stopOnFault s = false →
            t.life = .excluded ∧ t.exclusionReason = some .uncorrectable ∧ t.replica = .cleared ∧
            t.pendingStop = s.pendingStop) ∧
          (stopOnFault s = true →
            t.life = .halted ∧ t.haltReason = some .fault ∧ t.replica = .cleared ∧ t.pendingStop = some .fault)
      (AllGood (installReads s) s.ecc → s.lateDamage = .sound →
        ∃ t, exec (.verdictWindowClose slots) s = .next t ∧ t.life = .member ∧ t.join = .none ∧
          t.replica = (applyFrame f (applyAll s.join.catchUp copied)).replica ∧
          t.records = enqueue (.stateChanged .admitted) s.records ∧
          (∀ x : StationId, t.monitor.silence[x] ≠ .none ↔ t.replica.roster[x] = .full ∧ x ≠ s.straps.id) ∧
          t.monitor.beaconTimer.isSome = true ∧ t.monitor.beaconDue = false ∧ t.monitor.pendingEvict = noIds ∧
          t.round = roundOver { s.round with pointer := some (f.sender + 1), soloVetoes := 0 } ∧
          t.config = s.config ∧ t.inbound = s.inbound ∧ t.counters = s.counters ∧ t.fault = s.fault ∧
          t.foundingCount = s.foundingCount ∧ t.tickets = s.tickets ∧ t.hostQueue = s.hostQueue ∧
          t.ecc = .sound ∧ t.lateDamage = .sound) ∧
      (∀ w ∈ installReads s, conditionOf w s.ecc = .correctable →
        (∀ v ∈ installReads s, v ≠ w → conditionOf v s.ecc = .good) →
          exec (.verdictWindowClose slots) s =
            exec (.verdictWindowClose slots)
              { s with
                ecc := writeBack w s.ecc,
                counters := { s.counters with corrected := saturate s.counters.corrected 1 } }) ∧
      (damaged (installReads s) s.ecc → abandoned none) ∧
      (∀ g rest, s.join.catchUp = g :: rest → AllGood (installReads s) s.ecc →
        damaged (applicationReads s.straps.id g copied) s.lateDamage → abandoned (some g.sender))

/-! ### The limits -/

/-- The close of the window in which the readback-mismatch count reached 4, no slot reading STALE and the solo-veto limit
not reached with it: DUPLICATE_ID is recorded with the station's count and no sender under the first-fault rule, the pointer
is unknown, and a member, joiner or listener is EXCLUDED with reason DUPLICATE_ID, its pending STOP discarded and no rejoin
timer running; in HALTED the count recorded is 0 and only a pending STOP is discarded. A frame with the station's own ID in
a round it did not transmit in, vetoed by it, does the same at its close with the own ID as sender; in EXCLUDED it replaces
the reason; a station that has entered HALTED since its VETO only loses its pointer. The row is the close at which the limit
acts (log entry 1). That the count of a listener with a candidate is 0 is the model's reading (log entry 16), and so are
that a station halted since its VETO takes no other action (log entry 34) and that a VETO on a frame with the own ID leaves
the solo-veto count as it was (log entry 10) (03 sections 3.4 and 3.5, 06 section 6.4, 10 section 10.4). -/
def Obligations.ReadbackLimitMeansADuplicateId : Prop :=
  (∀ (before : Bool) (frame : Option Frame) (line2 : Bool) (slots : VerdictSlots) (s : State) (fl : InFlight)
     (mark : Option VerdictMark),
    AtVerdict { misreadIn before frame mark true with vetoLine2 := line2 } s → s.round.inFlight = some fl → s.ecc.roster = .good →
    (∀ i : StationId, slots[i] ≠ .stale) → (∃ i : StationId, slots[i] = .veto) →
    (line2 = true → (∃ i : StationId, i ≠ s.straps.id ∧ slots[i] = .veto) ∨ s.round.soloVetoes + 1 < 4) →
      (mark = some .veto → s.life = .member ∨ s.life = .entering ∨ s.life = .copying ∨ s.life = .listening ∨ s.life = .excluded →
        ∃ t count, exec (.readbackMismatchLimit slots) s = .next t ∧ t.life = .excluded ∧
          t.exclusionReason = some .duplicateId ∧ t.pendingStop = none ∧ t.rejoin = none ∧ t.round.pointer = none ∧
          t.fault = some (s.fault.getD { kind := .duplicateId, sequence := count, sender := none }) ∧
          (s.pendingLeave ≠ some .soloVeto → s.join.leaveAtEntryClose = false → count = ownCount s) ∧
          t.counters.vetoesCast = saturate s.counters.vetoesCast 1 ∧
          t.counters.ownVoided = saturate s.counters.ownVoided 1 ∧ t.config = s.config ∧ t.inbound = s.inbound) ∧
      (mark = none → s.life = .halted → fl.offer.source = .stop →
        ∃ t, exec (.readbackMismatchLimit slots) s = .next t ∧ t.life = .halted ∧ t.pendingStop = none ∧
          t.replica = s.replica ∧ t.records = s.records ∧ t.round.pointer = none ∧
          t.fault = some (s.fault.getD { kind := .duplicateId, sequence := 0, sender := none }))) ∧
  (∀ (f : Frame) (slots : VerdictSlots) (s : State),
     AtVerdict { received f (some .veto) with duplicate := true } s → s.round.inFlight = none →
     slots[s.straps.id] = .veto →
       (s.life = .member ∨ s.life = .entering ∨ s.life = .copying ∨ s.life = .listening →
         ∃ t, exec (.verdictWindowClose slots) s = .next t ∧ t.life = .excluded ∧
           t.exclusionReason = some .duplicateId ∧ t.pendingStop = none ∧ t.rejoin = none ∧ t.round.pointer = none ∧
           t.fault = some (s.fault.getD { kind := .duplicateId, sequence := ownCount s, sender := some s.straps.id }) ∧
           t.counters = { s.counters with vetoesCast := saturate s.counters.vetoesCast 1 } ∧ t.config = s.config ∧
           t.inbound = s.inbound) ∧
       (s.life = .excluded →
         exec (.verdictWindowClose slots) s =
           .next { s with
             exclusionReason := some .duplicateId, rejoin := none, pendingStop := none,
             records := enqueue (.stateChanged (.excluded .duplicateId)) s.records,
             fault := some (s.fault.getD { kind := .duplicateId, sequence := 0, sender := some s.straps.id }),
             counters := { s.counters with vetoesCast := saturate s.counters.vetoesCast 1 },
             round := roundOver { s.round with pointer := none } }) ∧
       (s.life = .halted →
         exec (.verdictWindowClose slots) s =
           .next { s with
             counters := { s.counters with vetoesCast := saturate s.counters.vetoesCast 1 },
             round := roundOver { s.round with pointer := none } }))

/-- The close at which the solo-veto count reaches 4: SOLO_VETO is recorded with the count and no sender and suppression
begins. A member, and a joiner whose join is open, has its LEAVE pending from the limit, whatever source it had, and stays
in its state; a listener, and a joiner whose join is not open, is EXCLUDED with reason SOLO_VETO; in EXCLUDED the reason
becomes SOLO_VETO in a new STATE_CHANGED record; in HALTED nothing more happens. The row is the close at which the count
reaches its limit (log entry 1). That the count of a listener with a candidate is 0 is the model's reading (log entry 16),
and what a station in HALTED does is the model's choice (log entry 35) (03 section 3.5, 10 section 10.4). -/
def Obligations.SoloVetoLimitSuppressesAndLeaves : Prop :=
  ∀ (slots : VerdictSlots) (s : State),
    AtVerdict (unreceived true) s → s.round.inFlight = none → s.round.won = false → s.round.soloVetoes = 3 →
    slots[s.straps.id] = .veto → (∀ i : StationId, i ≠ s.straps.id → slots[i] ≠ .veto) →
      let counted := fun (sequence : Half) =>
        { s with
          counters := { s.counters with vetoesCast := saturate s.counters.vetoesCast 1 },
          fault := some (s.fault.getD { kind := .soloVeto, sequence := sequence, sender := none }),
          round := roundOver { s.round with soloVetoes := 4, suppressed := true } }
      let tracked := s.join.tracked.getD 0
      let excluded := fun (sequence : Half) =>
        ∃ t, exec (.soloVetoLimit slots) s = .next t ∧ t.life = .excluded ∧ t.exclusionReason = some .soloVeto ∧
          t.round.suppressed = true ∧ t.round.soloVetoes = 0 ∧ t.pendingStop = s.pendingStop ∧
          t.fault = some (s.fault.getD { kind := .soloVeto, sequence := sequence, sender := none }) ∧
          t.round.pointer = s.round.pointer ∧ t.config = s.config ∧ t.inbound = s.inbound ∧ t.join = .none
      (s.life = .member →
        exec (.soloVetoLimit slots) s = .next { counted s.replica.sequence with pendingLeave := some .soloVeto }) ∧
      (s.life = .entering ∨ s.life = .copying →
        (s.join.isOpen = true →
          exec (.soloVetoLimit slots) s = .next { counted tracked with pendingLeave := some .soloVeto }) ∧
        (s.join.isOpen = false → excluded tracked)) ∧
      (s.life = .listening → excluded 0) ∧
      (s.life = .excluded →
        exec (.soloVetoLimit slots) s =
          .next { counted 0 with
            exclusionReason := some .soloVeto, records := enqueue (.stateChanged (.excluded .soloVeto)) s.records }) ∧
      (s.life = .halted → exec (.soloVetoLimit slots) s = .next (counted 0))

/-- The close at which the head of the host queue reaches its eighth attempt: it is dropped with its counts, the
frames-dropped and own-frames-voided counters advance, its ticket is RECORDED with FAILED(VETO_LIMIT), or for a NOTE to a
FULL destination UNDELIVERED with the class of this void, a lease reserved under it is freed, and the replica is unchanged.
The row is the close at which the count reaches its limit (log entry 1) (03 section 3.6, 07 section 7.2, 08 section 8.3, 09
section 9.2). -/
def Obligations.AttemptLimitDropsTheHead : Prop :=
  ∀ (f : HostFrame) (fl : InFlight) (rest : List HostFrame) (k : Ticket) (slots : VerdictSlots) (s : State),
    AtVerdict (received fl.frame none) s → s.round.inFlight = some fl → fl.offer.source = .host (hostTicket f) →
    fl.discarded = false → fl.frame.body = hostBody f → s.life = .member → s.hostQueue = f :: rest →
    (∀ d tp p t, rest.head? ≠ some (.note d tp p t)) → s.hostRetry.attempts = 7 →
    s.tickets[hostTicket f] = some k → s.replica.tag = some fl.frame.tag → s.ecc.roster = .good →
    (∀ i : StationId, slots[i] ≠ .stale) →
      let dropped := fun (r : Record) (pointer : Option StationId) =>
        exec (.attemptLimitDrop slots) s =
          .next { s with
            hostQueue := rest, hostRetry := .zero, busyWait := none,
            tickets := put s.tickets (hostTicket f) (some { k with place := .recorded }),
            records := s.records ++ [r],
            leases := (match f with
              | .claim _ _ _ _ t => s.leases.filter fun l => !reservedUnder t l
              | _ => s.leases),
            counters := { s.counters with
              ownVoided := saturate s.counters.ownVoided 1, framesDropped := saturate s.counters.framesDropped 1 },
            round := roundOver { s.round with pointer := pointer, soloVetoes := 0 } }
      ((∃ i : StationId, slots[i] = .veto) →
        (∀ lk m c fo t, f = .claim lk m c fo t → dropped (.failed t lk) s.round.pointer) ∧
        (∀ lk t, f = .yield lk t → dropped (.failed t lk) s.round.pointer) ∧
        (∀ lk tg t, f = .recall lk tg t → dropped (.failed t lk) s.round.pointer) ∧
        (∀ d tp p t, f = .note d tp p t → s.replica.roster[d] = .full →
          dropped (.undelivered t d .vetoLimit) s.round.pointer)) ∧
      (∀ d tp p t, f = .note d tp p t → s.replica.roster[d] = .full → (∀ i : StationId, slots[i] ≠ .veto) →
        slots[d] = .empty → dropped (.undelivered t d .noAnswer) (some (fl.frame.sender + 1)))

/-- The close at which the copy cursor's frame reaches its eighth VETO: it is dropped and counted and the cursor moves on
with fresh counts; a dropped ADMIT, the last frame, ends the copy and puts the joiner in the pending-evict set. The row is
the close at which the count reaches its limit (log entry 1) (03 section 3.6, 05 section 5.4). -/
def Obligations.CopyFrameIsDroppedAtTheLimit : Prop :=
  ∀ (c : CopyState) (frame : CopyFrame) (rest : List CopyFrame) (fl : InFlight) (slots : VerdictSlots) (s : State),
    AtVerdict (received fl.frame none) s → s.round.inFlight = some fl → fl.offer.source = .copy → fl.discarded = false →
    fl.frame.body = copyBody c frame → s.life = .member → s.replica.tag = some fl.frame.tag → s.copy = some c →
    c.frames = frame :: rest → s.copyRetry.attempts = 7 → (∃ i : StationId, slots[i] = .veto) →
    (∀ i : StationId, slots[i] ≠ .stale) →
      exec (.copyFrameDrop slots) s =
        .next { s with
          copy := if rest = [] then none else some { c with frames := rest }, copyRetry := .zero,
          monitor := { s.monitor with
            pendingEvict :=
              if rest = [] then addTo s.monitor.pendingEvict c.joiner else s.monitor.pendingEvict },
          counters := { s.counters with
            ownVoided := saturate s.counters.ownVoided 1, framesDropped := saturate s.counters.framesDropped 1 },
          round := roundOver { s.round with soloVetoes := 0 } }

/-- The close at which a NOTE to a FULL destination meets its sixteenth BUSY: it is dropped with UNDELIVERED(BUSY_LIMIT),
its ticket RECORDED and both counts 0; an earlier BUSY leaves it at the head with one more BUSY counted and starts the wait
of one beacon interval. The row is the close at which the count reaches its limit (log entry 1) (03 section 3.6, 08 section
8.3). -/
def Obligations.BusyNoteWaitsAndIsDroppedAtTheLimit : Prop :=
  ∀ (d : StationId) (tp : Fin 16) (p : List Byte) (t : TicketId) (fl : InFlight) (rest : List HostFrame) (k : Ticket)
    (slots : VerdictSlots) (s : State),
    AtVerdict (received fl.frame none) s → s.round.inFlight = some fl → fl.offer.source = .host t →
    fl.discarded = false → fl.frame.body = .note d tp p → s.life = .member → s.hostQueue = .note d tp p t :: rest →
    (∀ d tp p t, rest.head? ≠ some (.note d tp p t)) → s.tickets[t] = some k → s.replica.tag = some fl.frame.tag →
    s.ecc.roster = .good → s.replica.roster[d] = .full → slots[d] = .busy →
    (∀ i : StationId, slots[i] ≠ .veto ∧ slots[i] ≠ .stale) →
      (s.hostRetry.busy = 15 →
        exec (.busyLimitDrop slots) s =
          .next { s with
            hostQueue := rest, hostRetry := .zero, busyWait := none,
            tickets := put s.tickets t (some { k with place := .recorded }),
            records := s.records ++ [.undelivered t d .busyLimit],
            counters := { s.counters with
              ownVoided := saturate s.counters.ownVoided 1, framesDropped := saturate s.counters.framesDropped 1 },
            round := roundOver { s.round with pointer := some (fl.frame.sender + 1), soloVetoes := 0 } }) ∧
      (s.hostRetry.busy < 15 →
        exec (.verdictWindowClose slots) s =
          .next { s with
            hostRetry := { s.hostRetry with busy := s.hostRetry.busy + 1 },
            busyWait := some (intervalMs (ownInterval s)),
            counters := { s.counters with ownVoided := saturate s.counters.ownVoided 1 },
            round := roundOver { s.round with pointer := some (fl.frame.sender + 1), soloVetoes := 0 } })

/-! ### The timers -/

/-- A running wait after BUSY ends: the head of the host queue may be offered again. A running own beacon timer that runs
out stops and makes a BEACON due. A running silence timer that runs out stops, and its peer joins the pending-evict set. A
RUNNING lease that counts out becomes COUNTED_OUT and its lock joins the EXPIRE set; no other lease entry and nothing else
changes (03 section 3.6, 04 sections 4.2 and 4.3, 07 sections 7.3 and 7.4). -/
def Obligations.MemberTimersAndLeasesRunOut : Prop :=
  (∀ s : State,
     (∀ ms, s.busyWait = some ms → exec .busyWaitExpiry s = .next { s with busyWait := none }) ∧
     (∀ ms, s.monitor.beaconTimer = some ms →
       exec .ownBeaconTimerExpiry s =
         .next { s with monitor := { s.monitor with beaconTimer := none, beaconDue := true } }) ∧
     (∀ (peer : StationId) (ms : Nat), s.monitor.silence[peer] = .running ms →
       exec (.silenceTimerExpiry peer) s =
         .next { s with monitor := { s.monitor with
           silence := put s.monitor.silence peer .ranOut, pendingEvict := addTo s.monitor.pendingEvict peer } })) ∧
  (∀ (k : LockId) (units : Byte) (s : State), .running k units ∈ s.leases →
     exec (.leaseCountOut k) s =
       .next { s with
         leases := s.leases.map (fun l =>
           match l with
           | .running j u => if j = k then .countedOut j else .running j u
           | l => l),
         expireSet := addTo s.expireSet k })

/-- A listening station whose quiet window runs out founds a group: the founding count advances, the tag is its own ID with
that count, it alone is FULL, the lock table is the founding table, the sequence is 0, the pointer is 0, its own beacon
timer starts, and STATE_CHANGED(MEMBER, FOUNDED) is made (05 sections 5.1 and 5.2, 04 section 4.1, 01 section 1.11). -/
def Obligations.QuietWindowFoundsAGroup : Prop :=
  ∀ (ms : Nat) (s : State), s.life = .listening → s.listening.quiet = some ms →
    exec .quietWindowExpiry s =
      .next { s with
        life := .member,
        foundingCount := s.foundingCount + 1,
        replica :=
          { tag := some { founder := s.straps.id, count := s.foundingCount + 1 }, interval := some (configInterval s),
            sequence := 0, join := none, roster := put (Vector.replicate 16 .absent) s.straps.id .full,
            locks := Vector.replicate 64 .founding },
        ecc := .sound,
        monitor :=
          { silence := Vector.replicate 16 .none, beaconTimer := some (intervalMs (configInterval s)), beaconDue := false,
            pendingEvict := noIds },
        round := { s.round with pointer := some 0 },
        listening := { quiet := none, backoff := none, candidate := none },
        declines := [], copy := none, leases := [], expireSet := noLocks,
        records := enqueue (.stateChanged .founded) s.records }

/-- A listening station at the close of a clean frame other than ENTRY and STOP restarts its quiet window of four configured
intervals. If the frame is accepted, its group becomes the candidate where there is none or it ranks higher, the tracked
count of the same candidate follows the frame, and a lower-ranking group changes nothing. An accepted ENTRY with the
candidate's tag raises the tracked count by one, any other ENTRY changes nothing, and neither restarts the window. With the
backoff timer not running the candidate is targeted at that close; when it runs out, a present candidate is targeted then,
and with none only the timer stops. Targeting puts the station in ENTERING with the candidate's tag and tracked count, its
ENTRY pending and its join not open (05 section 5.1, 02 section 2.5). -/
def Obligations.ListenerFollowsAndTargetsItsCandidate : Prop :=
  let targeted := fun (c : Candidate) (s : State) =>
    { s with
      life := .entering, listening := { quiet := none, backoff := none, candidate := none },
      join := { JoinState.none with target := some c.tag, tracked := some c.tracked, entryPending := true } }
  (∀ (ms : Nat) (s : State), s.life = .listening → s.listening.backoff = some ms →
    (∀ c, s.listening.candidate = some c → exec .backoffTimerExpiry s = .next (targeted c s)) ∧
    (s.listening.candidate = none →
      exec .backoffTimerExpiry s = .next { s with listening := { s.listening with backoff := none } })) ∧
  (∀ (f : Frame) (slots : VerdictSlots) (s : State),
    AtVerdict (received f none) s → s.round.inFlight = none → s.life = .listening →
      let closed := { s with round := roundOver { s.round with pointer := some (f.sender + 1), soloVetoes := 0 } }
      let quiet := some (4 * intervalMs (configInterval s))
      let count := if isTable f.body then f.sequence + 1 else f.sequence
      let candidate :=
        match s.listening.candidate with
        | some c => if f.tag = c.tag ∨ ranksHigher f.tag c.tag = true then { tag := f.tag, tracked := count } else c
        | none => { tag := f.tag, tracked := count }
      (comparedKind f.body = true → (∀ i : StationId, slots[i] ≠ .veto) →
        (verdictOf f.body slots ≠ .accepted →
          exec (.verdictWindowClose slots) s = .next { closed with listening := { s.listening with quiet := quiet } }) ∧
        (verdictOf f.body slots = .accepted →
          (s.listening.backoff = none → exec (.verdictWindowClose slots) s = .next (targeted candidate closed)) ∧
          (s.listening.backoff ≠ none →
            exec (.verdictWindowClose slots) s =
              .next { closed with
                listening := { quiet := quiet, backoff := s.listening.backoff, candidate := some candidate } }))) ∧
      (isEntry f.body = true → Unmarked slots → s.listening.backoff ≠ none →
        (∀ c, s.listening.candidate = some c → c.tag = f.tag →
          exec (.verdictWindowClose slots) s =
            .next { closed with
              listening := { s.listening with candidate := some { c with tracked := c.tracked + 1 } } }) ∧
        ((∀ c, s.listening.candidate = some c → c.tag ≠ f.tag) →
          exec (.verdictWindowClose slots) s = .next closed)))

/-- A join timer that runs out in ENTERING, no solo-veto LEAVE pending, takes the station back to LISTENING with the quiet
window of four and the backoff of two configured intervals, and its join state cleared. A stall timer that runs out in
COPYING, the join open, records COPY_STALL with the tracked count and aborts the join: the LEAVE is pending, the catch-up
queue empty, and the station stays in COPYING (05 sections 5.5 and 5.6). -/
def Obligations.JoinTimersEndTheJoin : Prop :=
  ∀ (ms : Nat) (s : State), s.pendingLeave ≠ some .soloVeto →
    (s.life = .entering → s.join.joinTimer = some ms →
      ∃ round, exec .joinTimerExpiry s =
        .next { s with
          life := .listening, exclusionReason := none, haltReason := none, join := .none, pendingLeave := none,
          listening :=
            { quiet := some (4 * intervalMs (configInterval s)), backoff := some (2 * intervalMs (configInterval s)),
              candidate := none },
          round := round } ∧
        round.pointer = s.round.pointer ∧ round.phase = s.round.phase ∧ round.mismatches = s.round.mismatches ∧
        round.soloVetoes = s.round.soloVetoes ∧ round.suppressed = s.round.suppressed) ∧
    (s.life = .copying → s.join.stallTimer = some ms → s.join.isOpen = true →
      exec .stallTimerExpiry s =
        .next { s with
          fault := some (s.fault.getD { kind := .copyStall, sequence := s.join.tracked.getD 0, sender := none }),
          pendingLeave := some .abort,
          join := { s.join with abort := some .listening, joinTimer := none, stallTimer := none, catchUp := [] } })

/-- When the rejoin timer of an excluded station runs out it enters LISTENING with its quiet window started, no backoff and
no candidate; suppression ends, with the solo-veto count at 0 where it was in force, and the configuration, the other
counts, the records and a pending STOP are kept. That the solo-veto count is 0 again exactly where suppression was in force
is the model's reading (log entry 33) (06 section 6.4, 05 section 5.1, 03 section 3.5). -/
def Obligations.RejoinTimerEntersListening : Prop :=
  ∀ (ms : Nat) (s : State), s.life = .excluded → s.rejoin = some ms →
    ∃ t, exec .rejoinTimerExpiry s = .next t ∧ t.life = .listening ∧ t.rejoin = none ∧ t.exclusionReason = none ∧
      t.listening = { quiet := some (4 * intervalMs (configInterval s)), backoff := none, candidate := none } ∧
      t.round.suppressed = false ∧ t.round.pointer = s.round.pointer ∧ t.round.phase = s.round.phase ∧
      t.round.mismatches = s.round.mismatches ∧
      t.round.soloVetoes = (if s.round.suppressed = true then 0 else s.round.soloVetoes) ∧ t.config = s.config ∧
      t.records = s.records ∧ t.pendingStop = s.pendingStop ∧ t.replica = s.replica ∧ t.inbound = s.inbound ∧
      t.fault = s.fault ∧ t.counters = s.counters ∧ t.foundingCount = s.foundingCount

/-! ### The lock table -/

/-- The checks on a CLAIM from a FULL sender, in their order: HELD, WAITING, granted at once, BUSY for a TRY, QUOTA, POOL,
and otherwise the claim waits. A refused claim changes no lock record; a grant at once adds the holder at the next
generation; a claim that waits joins the queue, at the tail or, if HIGH, after the last HIGH entry, the sender is told that
it waits, and promotion runs on that lock record, which on a SOLE lock grants nothing. No other lock changes (01 sections
1.3, 1.4, 1.5 and 1.6). -/
def Obligations.ClaimFollowsTheChecks : Prop :=
  ∀ (f : Frame) (k : LockId) (m : Mode) (c : ClaimClass) (form : Form) (t : TicketId) (r : Replica),
    f.body = .claim k m c form t → r.roster[f.sender] = .full →
      let queued := ∃ e ∈ r.locks[k].queue, e.station = f.sender
      let atOnce :=
        r.locks[k].queue = [] ∧ (r.locks[k].state = .free ∨ (r.locks[k].state = .shared ∧ m = .shared))
      let refused := fun why : ClaimRefusal =>
        applyFrame f r =
          { replica := { r with sequence := r.sequence + 1 }, events := [.refused f.sender t k why], changes := [],
            entry := none }
      (has r.locks[k].holders f.sender = true → refused .held) ∧
      (has r.locks[k].holders f.sender = false →
        (queued → refused .waiting) ∧
        (¬queued →
          (atOnce →
            applyFrame f r =
              { replica :=
                  { r with
                    sequence := r.sequence + 1,
                    locks := put r.locks k
                      { state := (match m with | .sole => .sole | .shared => .shared),
                        holders := addTo r.locks[k].holders f.sender, queue := [],
                        generation := r.locks[k].generation + 1 } },
                events := [.granted f.sender t k (r.locks[k].generation + 1)], changes := [], entry := none }) ∧
          (¬atOnce →
            (form = .tryNow → refused .busy) ∧
            (form = .wait →
              (4 ≤ entriesOf f.sender r.locks → refused .quota) ∧
              (entriesOf f.sender r.locks < 4 → 48 ≤ poolInUse r.locks → refused .pool) ∧
              (entriesOf f.sender r.locks < 4 → poolInUse r.locks < 48 → lawfulLock r.locks[k] = true →
                ∃ before after,
                  r.locks[k].queue = before ++ after ∧
                  (c = .standard → after = []) ∧
                  (c = .high → (∀ e ∈ before, e.cls = .high) ∧ ∀ e ∈ after, e.cls = .standard) ∧
                  (let joined : LockRecord :=
                      { r.locks[k] with
                        queue := before ++ { station := f.sender, mode := m, cls := c, ticket := t } :: after }
                   lawfulLock joined = true ∧
                    applyFrame f r =
                      { replica := { r with sequence := r.sequence + 1, locks := put r.locks k (promote k joined).1 },
                        events := .waits f.sender t k :: (promote k joined).2, changes := [], entry := none } ∧
                    (r.locks[k].state = .sole → promote k joined = (joined, []))))))))

/-- Promotion on a lawful lock record grants the heads of its queue in order until one cannot be granted: each granted
station joins the holder set, is told its own ticket and a generation one above the last, and the lock record stays lawful
with the rest of its queue, whose head cannot be granted. A SOLE head is granted only on an empty holder set and then alone;
nothing is granted on a SOLE lock, so several grants are all SHARED on a FREE or SHARED lock. The state becomes that of the
mode granted, and stays as it was where nothing is granted (01 sections 1.1 and 1.6). -/
def Obligations.PromotionGrantsHeadsInOrder : Prop :=
  ∀ (k : LockId) (r : LockRecord), lawfulLock r = true →
    ∃ given rest,
      r.queue = given ++ rest ∧ (promote k r).1.queue = rest ∧
      (r.state = .sole → given = []) ∧
      (∀ e ∈ given, e.mode = .sole → given = [e] ∧ ∀ x : StationId, has r.holders x = false) ∧
      (∀ x : StationId,
        has (promote k r).1.holders x = true ↔ has r.holders x = true ∨ ∃ e ∈ given, e.station = x) ∧
      (given = [] → (promote k r).1.state = r.state) ∧
      (∀ e ∈ given, (promote k r).1.state = (match e.mode with | .sole => .sole | .shared => .shared)) ∧
      (promote k r).1.generation = r.generation + BitVec.ofNat 8 given.length ∧
      (promote k r).2 =
        given.zipIdx.map (fun p => .granted p.1.station p.1.ticket k (r.generation + BitVec.ofNat 8 (p.2 + 1))) ∧
      lawfulLock (promote k r).1 = true ∧ headBlocked (promote k r).1 = true

/-- A YIELD or an EXPIRE from a FULL holder takes it out of the holder set, the lock FREE when no holder is left, and runs
promotion, after the sender's own event; a YIELD from a non-holder changes nothing and answers NOT_HELD. A RECALL takes the
sender's entry of its target ticket out of the queue and runs promotion, and answers TOO_LATE to a holder and NOT_WAITING
otherwise (01 sections 1.7, 1.8 and 1.9). -/
def Obligations.YieldRecallAndExpireFollowTheTable : Prop :=
  ∀ (f : Frame) (k : LockId) (r : Replica), r.roster[f.sender] = .full →
    let left := dropFrom r.locks[k].holders f.sender
    let after := fun (record : LockRecord) (own : List TableEvent) =>
      applyFrame f r =
        { replica := { r with sequence := r.sequence + 1, locks := put r.locks k (promote k record).1 },
          events := own ++ (promote k record).2, changes := [], entry := none }
    let without : LockRecord :=
      { r.locks[k] with
        holders := left, state := if ∀ x : StationId, has left x = false then .free else r.locks[k].state }
    let nothing := fun own : TableEvent =>
      applyFrame f r =
        { replica := { r with sequence := r.sequence + 1 }, events := [own], changes := [], entry := none }
    (∀ t, f.body = .yield k t → has r.locks[k].holders f.sender = true → after without [.yielded f.sender t k]) ∧
    (∀ t, f.body = .yield k t → has r.locks[k].holders f.sender = false → nothing (.notHeld f.sender t k)) ∧
    (f.body = .expire k → has r.locks[k].holders f.sender = true → after without [.expired f.sender k]) ∧
    (∀ target t, f.body = .recall k target t →
      (∀ before e rest, r.locks[k].queue = before ++ e :: rest → e.station = f.sender → e.ticket = target →
        (∀ x ∈ before, x.station ≠ f.sender) →
        after { r.locks[k] with queue := before ++ rest } [.recalled f.sender target k, .recallDone f.sender t k]) ∧
      ((∀ e ∈ r.locks[k].queue, e.station ≠ f.sender ∨ e.ticket ≠ target) →
        (has r.locks[k].holders f.sender = true → nothing (.tooLate f.sender t k)) ∧
        (has r.locks[k].holders f.sender = false → nothing (.notWaiting f.sender t k))))

/-- A CLAIM, YIELD, RECALL, EXPIRE or EVICT whose sender is not FULL changes nothing but the sequence and tells nobody
anything (01 section 1.4, 04 section 4.5). -/
def Obligations.OnlyFullSendersChangeTheTable : Prop :=
  ∀ (f : Frame) (r : Replica), r.roster[f.sender] ≠ .full →
    (∃ k m c form t, f.body = .claim k m c form t) ∨ (∃ k t, f.body = .yield k t) ∨
      (∃ k target t, f.body = .recall k target t) ∨ (∃ k, f.body = .expire k) ∨ (∃ x, f.body = .evict x) →
      applyFrame f r =
        { replica := { r with sequence := r.sequence + 1 }, events := [], changes := [], entry := none }

/-- An EVICT of a FULL station by a FULL sender, and a FULL station's own LEAVE, make it ABSENT and take it out of every
holder set and queue; every other holder stays, only a station that was waiting for a lock can become its holder, nobody
joins a queue, and each lock record stays lawful (01 section 1.10, 04 sections 4.5 and 4.7). -/
def Obligations.DepartedStationIsReleased : Prop :=
  ∀ (f : Frame) (x : StationId) (r : Replica),
    (f.body = .evict x ∧ r.roster[f.sender] = .full) ∨ (f.body = .leave ∧ f.sender = x) → r.roster[x] = .full →
    LocksLawful r.locks →
      (applyFrame f r).replica.roster[x] = .absent ∧ LocksLawful (applyFrame f r).replica.locks ∧
      ∀ (k : LockId) (y : StationId),
        standsIn x (applyFrame f r).replica.locks[k] = false ∧
        (y ≠ x → has r.locks[k].holders y = true → has (applyFrame f r).replica.locks[k].holders y = true) ∧
        (has (applyFrame f r).replica.locks[k].holders y = true →
          has r.locks[k].holders y = true ∨ ∃ e ∈ r.locks[k].queue, e.station = y) ∧
        (∀ e ∈ (applyFrame f r).replica.locks[k].queue, e ∈ r.locks[k].queue)

/-! ### Entry, admission and agreement -/

/-- An ENTRY first settles the earlier standing of its sender: an ABSENT one changes nothing, a PENDING one becomes ABSENT
and its join record is cleared, a FULL one is released from every lock and becomes ABSENT, and with it the joiner of a join
it was copy source of, that join record cleared. Then the lowest FULL ID declines it with CONFIG where its interval is not
the group's, and with JOIN_BUSY where a join is open; otherwise the station becomes PENDING and the join record names it
with that ID as copy source. An ADMIT of a PENDING station makes it FULL and clears the join record; of any other it changes
nothing but the sequence. That an ADMIT takes effect also from a sender that is not FULL is the model's reading (log entry
22) (05 sections 5.3 and 5.4, 04 section 4.5). -/
def Obligations.EntryAndAdmitChangeTheRoster : Prop :=
  ∀ (f : Frame) (r : Replica),
    (∀ (i : Interval) (m : StationId) (base : Replica) (told : List TableEvent) (changes : List RosterChange),
      f.body = .entry i →
      (r.roster[f.sender] = .absent ∧ base = r ∧ told = [] ∧ changes = []) ∨
      (r.roster[f.sender] = .pending ∧ base = { r with roster := put r.roster f.sender .absent, join := none } ∧
        told = [] ∧ changes = [{ id := f.sender, was := .pending, now := .absent }]) ∨
      (r.roster[f.sender] = .full ∧ (∀ j, r.join = some j → j.source ≠ f.sender) ∧
        base = { r with locks := (release f.sender r.locks).1, roster := put r.roster f.sender .absent } ∧
        told = (release f.sender r.locks).2 ∧ changes = [{ id := f.sender, was := .full, now := .absent }]) ∨
      (r.roster[f.sender] = .full ∧
        ∃ x : StationId, r.join = some { joiner := x, source := f.sender } ∧ r.roster[x] = .pending ∧
          base =
            { r with
              locks := (release f.sender r.locks).1, roster := put (put r.roster f.sender .absent) x .absent,
              join := none } ∧
          told = (release f.sender r.locks).2 ∧
          changes = [{ id := f.sender, was := .full, now := .absent }, { id := x, was := .pending, now := .absent }]) →
      base.roster[m] = .full → (∀ y : StationId, y < m → base.roster[y] ≠ .full) →
        (base.interval ≠ some i →
          applyFrame f r =
            { replica := { base with sequence := r.sequence + 1 }, events := told, changes := changes,
              entry := some (.declined m f.sender .config) }) ∧
        (base.interval = some i → base.join ≠ none →
          applyFrame f r =
            { replica := { base with sequence := r.sequence + 1 }, events := told, changes := changes,
              entry := some (.declined m f.sender .joinBusy) }) ∧
        (base.interval = some i → base.join = none →
          applyFrame f r =
            { replica :=
                { base with
                  sequence := r.sequence + 1, roster := put base.roster f.sender .pending,
                  join := some { joiner := f.sender, source := m } },
              events := told, changes := changes ++ [{ id := f.sender, was := .absent, now := .pending }],
              entry := some (.opened m f.sender) })) ∧
    (∀ j n, f.body = .admission j n →
      (r.roster[j] = .pending →
        applyFrame f r =
          { replica := { r with sequence := r.sequence + 1, roster := put r.roster j .full, join := none },
            events := [], changes := [{ id := j, was := .pending, now := .full }], entry := none }) ∧
      (r.roster[j] ≠ .pending →
        applyFrame f r =
          { replica := { r with sequence := r.sequence + 1 }, events := [], changes := [], entry := none }))

/-- Every application keeps the laws of the device over a replica: lock state and holder set agree, HIGH entries stand
first, no station stands twice on a lock, no queue is left whose head could be granted, the pool of 48 and the quota of 4
are kept, only FULL stations hold or wait, and the one PENDING ID is the joiner of the join record (01 sections 1.1, 1.2,
1.3 and 1.6, 04 section 4.1). -/
def Obligations.ApplicationKeepsReplicaLaws : Prop :=
  ∀ (f : Frame) (r : Replica), ReplicaLaws r → ReplicaLaws (applyFrame f r).replica

/-- Two members with equal replicas that observe the acceptance of one in-step table frame of a third station, which names
neither of them in an EVICT, hold equal replicas after it, whatever else their states hold. The words an application reads
are the model's division (log entry 6) (02 section 2.8). -/
def Obligations.MembersStayInAgreement : Prop :=
  ∀ (f : Frame) (slots : VerdictSlots) (s₁ s₂ : State),
    s₁.replica = s₂.replica → s₁.life = .member → s₂.life = .member →
    AtVerdict (received f none) s₁ → AtVerdict (received f none) s₂ → s₁.round.inFlight = none → s₂.round.inFlight = none →
    s₁.replica.tag = some f.tag → isTable f.body = true →
    (isEntry f.body = true ∨ f.sequence = s₁.replica.sequence) → Unmarked slots →
    f.body ≠ .evict s₁.straps.id → f.body ≠ .evict s₂.straps.id → s₁.ecc = .sound → s₂.ecc = .sound →
      ∃ t₁ t₂, exec (.verdictWindowClose slots) s₁ = .next t₁ ∧ exec (.verdictWindowClose slots) s₂ = .next t₂ ∧
        t₁.replica = t₂.replica ∧ t₁.life = .member ∧ t₂.life = .member ∧
        t₁.replica.sequence = s₁.replica.sequence + 1

/-! ### Frames as bytes -/

/-- A run of bytes is taken for a frame exactly when the frame meets the conditions of a well-formed frame and the run is
what it is transmitted as: every frame is read back from its bytes with every field at every value it can take, and no bit
of a received frame, reserved bits and check word among them, is ignored (02 section 2.2, 12 section 12.1). -/
def Obligations.FramesAndTheirBytesAgree : Prop :=
  ∀ (bytes : List Byte) (f : Frame), frameOf bytes = some f ↔ frameChecks f = true ∧ bytes = frameBytes f

/-! ### Invariants -/

/-- The state after reset meets the three invariants of the station, and the replica a founder sets meets the laws of the
device (06 section 6.7, 01 section 1.11, 05 section 5.2). -/
def Obligations.ResetMeetsTheInvariants : Prop :=
  BlocksAgree State.reset ∧ TablesLawful State.reset ∧ WithinCapacity State.reset ∧
    ∀ (id : StationId) (count : Byte) (interval : Interval),
      ReplicaLaws
        { tag := some { founder := id, count := count }, interval := some interval, sequence := 0, join := none,
          roster := put (Vector.replicate 16 .absent) id .full, locks := Vector.replicate 64 .founding }

/-- Every step keeps the agreement of the blocks with the state of the life cycle: configuration, replica, tickets, host
queue, timers, join, copy, leases and pending LEAVE and STOP are what the state allows (06 sections 6.1, 6.2, 6.4 and 6.6,
10 section 10.2, 04 section 4.1, 05 sections 5.1 and 5.5). -/
def Obligations.StepsKeepTheBlocksInAgreement : Prop :=
  ∀ s t : State, BlocksAgree s → step s = .next t → BlocksAgree t

/-- Every step keeps the lock records lawful wherever the station holds them (its replica, the shadow of a copy, the copy
received, the frame received). It keeps the bounds of the host queue of 8, the lease table of 8, the inbound notes of 8, the
catch-up queue of 24 and the DECLINE list of 16, which names no joiner twice; one unread record of each coalesced kind; and
the retry counts below their limits. The solo-veto count stands at its limit only in suppression, under which no VETO of
line 2 is placed. The length of the notification queue as a whole is not bounded here (01 sections 1.1 and 1.3, 03 sections
3.5 and 3.6, 05 sections 5.3 and 5.5, 07 section 7.1, 08 section 8.4, 09 sections 9.3 and 9.5). -/
def Obligations.StepsKeepTablesAndCapacities : Prop :=
  ∀ s t : State, step s = .next t → (TablesLawful s → TablesLawful t) ∧ (WithinCapacity s → WithinCapacity t)
end

