-- ==== Sys2Proof/Laws/HostPort.lean ====
section
/-!
SUPPORT. The taking of host commands: what each command row does once the port has collected the bytes before its last one, and
the shared checks of section 9.1.
-/

namespace Sys2Proof.Machine

variable {s : State}

theorem awaitsLast_of_collected {bytes : List Byte} (b : Byte) (h : Collected bytes s) :
    awaitsLast (bytes ++ [b]) s = true := by
  obtain ⟨h1, h2⟩ := h
  unfold awaitsLast
  rw [h1, h2]
  split <;> simp

/-- A complete command whose last byte the port awaits is taken. -/
theorem whenTaken_of_collected {bytes : List Byte} {b : Byte} (take : State → State) (h : Collected bytes s)
    (hc : commandComplete (bytes ++ [b]) = true) : whenTaken (bytes ++ [b]) take s = take s := by
  simp [whenTaken, hc, awaitsLast_of_collected b h]

theorem exec_status_taken (h : Collected [] s) : exec .status s = .next (takeStatus s) :=
  congrArg _ (whenTaken_of_collected (b := 0x01) takeStatus h rfl)

theorem exec_start_taken {arg : Byte} (h : Collected [0x02] s) : exec (.start arg) s = .next (takeStart arg s) :=
  congrArg _ (whenTaken_of_collected (b := arg) (takeStart arg) h rfl)

theorem exec_claim_taken {lock flags lease : Byte} (h : Collected [0x03, lock, flags] s) :
    exec (.claim lock flags lease) s = .next (takeClaim lock flags lease s) :=
  congrArg _ (whenTaken_of_collected (b := lease) (takeClaim lock flags lease) h rfl)

theorem exec_yield_taken {lock : Byte} (h : Collected [0x04] s) : exec (.yield lock) s = .next (takeYield lock s) :=
  congrArg _ (whenTaken_of_collected (b := lock) (takeYield lock) h rfl)

theorem exec_recall_taken {lock target : Byte} (h : Collected [0x05, lock] s) :
    exec (.recall lock target) s = .next (takeRecall lock target s) :=
  congrArg _ (whenTaken_of_collected (b := target) (takeRecall lock target) h rfl)

theorem commandComplete_note {dest topic length : Byte} {payload : List Byte} :
    commandComplete (0x06 :: dest :: topic :: length :: payload) = (Instr.note dest topic length payload).wellFormed := by
  rfl

theorem exec_note_taken {dest topic length b : Byte} {payload bytes : List Byte}
    (hw : (Instr.note dest topic length payload).wellFormed = true)
    (hb : 0x06 :: dest :: topic :: length :: payload = bytes ++ [b]) (h : Collected bytes s) :
    exec (.note dest topic length payload) s = .next (takeNoteCommand dest topic length payload s) := by
  have hc : commandComplete (bytes ++ [b]) = true := by rw [← hb, commandComplete_note]; exact hw
  have := whenTaken_of_collected (takeNoteCommand dest topic length payload) h hc
  rw [← hb] at this
  exact congrArg _ this

theorem exec_next_taken (h : Collected [] s) : exec .next s = .next (takeNext s) :=
  congrArg _ (whenTaken_of_collected (b := 0x07) takeNext h rfl)

theorem exec_takeNote_taken (h : Collected [] s) : exec .takeNote s = .next (takeInbound s) :=
  congrArg _ (whenTaken_of_collected (b := 0x08) takeInbound h rfl)

theorem exec_lookLock_taken {lock : Byte} (h : Collected [0x09] s) :
    exec (.lookLock lock) s = .next (takeLookLock lock s) :=
  congrArg _ (whenTaken_of_collected (b := lock) (takeLookLock lock) h rfl)

theorem exec_lookRoster_taken (h : Collected [] s) : exec .lookRoster s = .next (takeLookRoster s) :=
  congrArg _ (whenTaken_of_collected (b := 0x0A) takeLookRoster h rfl)

theorem exec_leave_taken (h : Collected [] s) : exec .leave s = .next (takeLeave s) :=
  congrArg _ (whenTaken_of_collected (b := 0x0B) takeLeave h rfl)

theorem exec_stop_taken (h : Collected [] s) : exec .stop s = .next (takeStop s) :=
  congrArg _ (whenTaken_of_collected (b := 0x0C) takeStop h rfl)

theorem exec_restart_taken (h : Collected [] s) : exec .restart s = .next (takeRestart s) :=
  congrArg _ (whenTaken_of_collected (b := 0x0D) takeRestart h rfl)

theorem exec_softReset_taken (h : Collected [] s) : exec .softReset s = .next (takeSoftReset s) :=
  congrArg _ (whenTaken_of_collected (b := 0x0E) takeSoftReset h rfl)

theorem exec_faults_taken (h : Collected [] s) : exec .faults s = .next (takeFaults s) :=
  congrArg _ (whenTaken_of_collected (b := 0x0F) takeFaults h rfl)

theorem exec_clearFaults_taken (h : Collected [] s) : exec .clearFaults s = .next (takeClearFaults s) :=
  congrArg _ (whenTaken_of_collected (b := 0x10) takeClearFaults h rfl)

/-! ### The shared checks (R162, R163) -/

theorem respond_eq_answered (bytes : List Byte) : respond bytes s = answered bytes s := rfl

theorem inStates_of_mem {states : List Life} {take : State → State} (h : s.life ∈ states) :
    inStates states take s = take s := by
  simp [inStates, h]

theorem inStates_of_not_mem {states : List Life} {take : State → State} (h : s.life ∉ states) :
    inStates states take s = answered [0x02] s := by
  simp [inStates, h]
  rfl

theorem lowestFreeTicket_eq {t : TicketId} (h : LowestFree t s) : lowestFreeTicket s = some t := by
  unfold lowestFreeTicket allIds
  rw [List.find?_eq_some_iff_getElem]
  refine ⟨by simp [h.1], t.val, by simp, by simp, fun j hj => ?_⟩
  have := h.2 ⟨j, by omega⟩ hj
  simpa [Option.isSome_iff_ne_none] using this

theorem lowestFreeTicket_none (h : ∀ t : TicketId, s.tickets[t] ≠ none) : lowestFreeTicket s = none := by
  unfold lowestFreeTicket
  rw [List.find?_eq_none]
  intro t _
  simpa using h t

/-- The ticket and queue checks pass: the work is done under the lowest free ticket (R162, R165). -/
theorem withTicket_of_room {work : TicketId → State → State} {t : TicketId} (h : LowestFree t s)
    (hq : s.hostQueue.length < 8) : withTicket work s = work t s := by
  have : ¬ 8 ≤ s.hostQueue.length := by omega
  simp [withTicket, lowestFreeTicket_eq h, Config.hostQueueSize, this]

theorem lockOf_of_toNat {b : Byte} {k : LockId} (h : b.toNat = k.val) : lockOf b = some k := by
  unfold lockOf
  rw [dif_pos (by rw [h]; exact k.isLt)]
  simp [h]

theorem lockOf_none {b : Byte} (h : 63 < b.toNat) : lockOf b = none := by
  unfold lockOf
  rw [dif_neg (by omega)]

theorem smallOf_of_toNat {b : Byte} {i : Fin 16} (h : b.toNat = i.val) : smallOf b = some i := by
  unfold smallOf
  rw [dif_pos (by rw [h]; exact i.isLt)]
  simp [h]

theorem smallOf_none {b : Byte} (h : 15 < b.toNat) : smallOf b = none := by
  unfold smallOf
  rw [dif_neg (by omega)]

/-- A frame that is no NOTE joins the queue, and nothing is looked up (R150, R167). -/
theorem appendHostFrame_of_not_note {f : HostFrame} (h : ∀ d tp p t, f ≠ .note d tp p t) :
    appendHostFrame f s = { s with hostQueue := s.hostQueue ++ [f] } := by
  unfold appendHostFrame
  cases hq : s.hostQueue with
  | nil =>
    cases f with
    | note d tp p t => exact absurd rfl (h d tp p t)
    | _ => simp [lookupHead, lookupHeads]
  | cons x rest => simp

end Sys2Proof.Machine
end

