-- ==== Sys2Proof/Laws/State.lean ====
section
/-!
SUPPORT. One lemma for each field and each update of the state: what the shared operations set, and what they leave.
-/

namespace Sys2Proof.Machine

variable (s : State)

@[simp] theorem respond_tickets (bytes : List Byte) : (respond bytes s).tickets = s.tickets := rfl
@[simp] theorem respond_hostQueue (bytes : List Byte) : (respond bytes s).hostQueue = s.hostQueue := rfl
@[simp] theorem respond_hostRetry (bytes : List Byte) : (respond bytes s).hostRetry = s.hostRetry := rfl
@[simp] theorem respond_busyWait (bytes : List Byte) : (respond bytes s).busyWait = s.busyWait := rfl
@[simp] theorem respond_round (bytes : List Byte) : (respond bytes s).round = s.round := rfl
@[simp] theorem respond_copyRetry (bytes : List Byte) : (respond bytes s).copyRetry = s.copyRetry := rfl
@[simp] theorem respond_replica (bytes : List Byte) : (respond bytes s).replica = s.replica := rfl
@[simp] theorem respond_ecc (bytes : List Byte) : (respond bytes s).ecc = s.ecc := rfl
@[simp] theorem respond_lateDamage (bytes : List Byte) : (respond bytes s).lateDamage = s.lateDamage := rfl
@[simp] theorem respond_monitor (bytes : List Byte) : (respond bytes s).monitor = s.monitor := rfl
@[simp] theorem respond_listening (bytes : List Byte) : (respond bytes s).listening = s.listening := rfl
@[simp] theorem respond_join (bytes : List Byte) : (respond bytes s).join = s.join := rfl
@[simp] theorem respond_declines (bytes : List Byte) : (respond bytes s).declines = s.declines := rfl
@[simp] theorem respond_copy (bytes : List Byte) : (respond bytes s).copy = s.copy := rfl
@[simp] theorem respond_leases (bytes : List Byte) : (respond bytes s).leases = s.leases := rfl
@[simp] theorem respond_expireSet (bytes : List Byte) : (respond bytes s).expireSet = s.expireSet := rfl
@[simp] theorem respond_inbound (bytes : List Byte) : (respond bytes s).inbound = s.inbound := rfl
@[simp] theorem respond_records (bytes : List Byte) : (respond bytes s).records = s.records := rfl
@[simp] theorem respond_fault (bytes : List Byte) : (respond bytes s).fault = s.fault := rfl
@[simp] theorem respond_counters (bytes : List Byte) : (respond bytes s).counters = s.counters := rfl
@[simp] theorem respond_life (bytes : List Byte) : (respond bytes s).life = s.life := rfl
@[simp] theorem respond_exclusionReason (bytes : List Byte) : (respond bytes s).exclusionReason = s.exclusionReason := rfl
@[simp] theorem respond_haltReason (bytes : List Byte) : (respond bytes s).haltReason = s.haltReason := rfl
@[simp] theorem respond_config (bytes : List Byte) : (respond bytes s).config = s.config := rfl
@[simp] theorem respond_foundingCount (bytes : List Byte) : (respond bytes s).foundingCount = s.foundingCount := rfl
@[simp] theorem respond_rejoin (bytes : List Byte) : (respond bytes s).rejoin = s.rejoin := rfl
@[simp] theorem respond_pendingLeave (bytes : List Byte) : (respond bytes s).pendingLeave = s.pendingLeave := rfl
@[simp] theorem respond_pendingStop (bytes : List Byte) : (respond bytes s).pendingStop = s.pendingStop := rfl
@[simp] theorem respond_straps (bytes : List Byte) : (respond bytes s).straps = s.straps := rfl
@[simp] theorem respond_strapPins (bytes : List Byte) : (respond bytes s).strapPins = s.strapPins := rfl
@[simp] theorem respond_freeCount (bytes : List Byte) : (respond bytes s).freeCount = s.freeCount := rfl
@[simp] theorem respond_pending (bytes : List Byte) : (respond bytes s).pending = s.pending := rfl

@[simp] theorem answer_tickets (st : Status) : (answer st s).tickets = s.tickets := rfl
@[simp] theorem answer_hostQueue (st : Status) : (answer st s).hostQueue = s.hostQueue := rfl
@[simp] theorem answer_hostRetry (st : Status) : (answer st s).hostRetry = s.hostRetry := rfl
@[simp] theorem answer_busyWait (st : Status) : (answer st s).busyWait = s.busyWait := rfl
@[simp] theorem answer_round (st : Status) : (answer st s).round = s.round := rfl
@[simp] theorem answer_copyRetry (st : Status) : (answer st s).copyRetry = s.copyRetry := rfl
@[simp] theorem answer_replica (st : Status) : (answer st s).replica = s.replica := rfl
@[simp] theorem answer_ecc (st : Status) : (answer st s).ecc = s.ecc := rfl
@[simp] theorem answer_lateDamage (st : Status) : (answer st s).lateDamage = s.lateDamage := rfl
@[simp] theorem answer_monitor (st : Status) : (answer st s).monitor = s.monitor := rfl
@[simp] theorem answer_listening (st : Status) : (answer st s).listening = s.listening := rfl
@[simp] theorem answer_join (st : Status) : (answer st s).join = s.join := rfl
@[simp] theorem answer_declines (st : Status) : (answer st s).declines = s.declines := rfl
@[simp] theorem answer_copy (st : Status) : (answer st s).copy = s.copy := rfl
@[simp] theorem answer_leases (st : Status) : (answer st s).leases = s.leases := rfl
@[simp] theorem answer_expireSet (st : Status) : (answer st s).expireSet = s.expireSet := rfl
@[simp] theorem answer_inbound (st : Status) : (answer st s).inbound = s.inbound := rfl
@[simp] theorem answer_records (st : Status) : (answer st s).records = s.records := rfl
@[simp] theorem answer_fault (st : Status) : (answer st s).fault = s.fault := rfl
@[simp] theorem answer_counters (st : Status) : (answer st s).counters = s.counters := rfl
@[simp] theorem answer_life (st : Status) : (answer st s).life = s.life := rfl
@[simp] theorem answer_exclusionReason (st : Status) : (answer st s).exclusionReason = s.exclusionReason := rfl
@[simp] theorem answer_haltReason (st : Status) : (answer st s).haltReason = s.haltReason := rfl
@[simp] theorem answer_config (st : Status) : (answer st s).config = s.config := rfl
@[simp] theorem answer_foundingCount (st : Status) : (answer st s).foundingCount = s.foundingCount := rfl
@[simp] theorem answer_rejoin (st : Status) : (answer st s).rejoin = s.rejoin := rfl
@[simp] theorem answer_pendingLeave (st : Status) : (answer st s).pendingLeave = s.pendingLeave := rfl
@[simp] theorem answer_pendingStop (st : Status) : (answer st s).pendingStop = s.pendingStop := rfl
@[simp] theorem answer_straps (st : Status) : (answer st s).straps = s.straps := rfl
@[simp] theorem answer_strapPins (st : Status) : (answer st s).strapPins = s.strapPins := rfl
@[simp] theorem answer_freeCount (st : Status) : (answer st s).freeCount = s.freeCount := rfl
@[simp] theorem answer_pending (st : Status) : (answer st s).pending = s.pending := rfl

@[simp] theorem answerOk_tickets (bytes : List Byte) : (answerOk bytes s).tickets = s.tickets := rfl
@[simp] theorem answerOk_hostQueue (bytes : List Byte) : (answerOk bytes s).hostQueue = s.hostQueue := rfl
@[simp] theorem answerOk_hostRetry (bytes : List Byte) : (answerOk bytes s).hostRetry = s.hostRetry := rfl
@[simp] theorem answerOk_busyWait (bytes : List Byte) : (answerOk bytes s).busyWait = s.busyWait := rfl
@[simp] theorem answerOk_round (bytes : List Byte) : (answerOk bytes s).round = s.round := rfl
@[simp] theorem answerOk_copyRetry (bytes : List Byte) : (answerOk bytes s).copyRetry = s.copyRetry := rfl
@[simp] theorem answerOk_replica (bytes : List Byte) : (answerOk bytes s).replica = s.replica := rfl
@[simp] theorem answerOk_ecc (bytes : List Byte) : (answerOk bytes s).ecc = s.ecc := rfl
@[simp] theorem answerOk_lateDamage (bytes : List Byte) : (answerOk bytes s).lateDamage = s.lateDamage := rfl
@[simp] theorem answerOk_monitor (bytes : List Byte) : (answerOk bytes s).monitor = s.monitor := rfl
@[simp] theorem answerOk_listening (bytes : List Byte) : (answerOk bytes s).listening = s.listening := rfl
@[simp] theorem answerOk_join (bytes : List Byte) : (answerOk bytes s).join = s.join := rfl
@[simp] theorem answerOk_declines (bytes : List Byte) : (answerOk bytes s).declines = s.declines := rfl
@[simp] theorem answerOk_copy (bytes : List Byte) : (answerOk bytes s).copy = s.copy := rfl
@[simp] theorem answerOk_leases (bytes : List Byte) : (answerOk bytes s).leases = s.leases := rfl
@[simp] theorem answerOk_expireSet (bytes : List Byte) : (answerOk bytes s).expireSet = s.expireSet := rfl
@[simp] theorem answerOk_inbound (bytes : List Byte) : (answerOk bytes s).inbound = s.inbound := rfl
@[simp] theorem answerOk_records (bytes : List Byte) : (answerOk bytes s).records = s.records := rfl
@[simp] theorem answerOk_fault (bytes : List Byte) : (answerOk bytes s).fault = s.fault := rfl
@[simp] theorem answerOk_counters (bytes : List Byte) : (answerOk bytes s).counters = s.counters := rfl
@[simp] theorem answerOk_life (bytes : List Byte) : (answerOk bytes s).life = s.life := rfl
@[simp] theorem answerOk_exclusionReason (bytes : List Byte) : (answerOk bytes s).exclusionReason = s.exclusionReason := rfl
@[simp] theorem answerOk_haltReason (bytes : List Byte) : (answerOk bytes s).haltReason = s.haltReason := rfl
@[simp] theorem answerOk_config (bytes : List Byte) : (answerOk bytes s).config = s.config := rfl
@[simp] theorem answerOk_foundingCount (bytes : List Byte) : (answerOk bytes s).foundingCount = s.foundingCount := rfl
@[simp] theorem answerOk_rejoin (bytes : List Byte) : (answerOk bytes s).rejoin = s.rejoin := rfl
@[simp] theorem answerOk_pendingLeave (bytes : List Byte) : (answerOk bytes s).pendingLeave = s.pendingLeave := rfl
@[simp] theorem answerOk_pendingStop (bytes : List Byte) : (answerOk bytes s).pendingStop = s.pendingStop := rfl
@[simp] theorem answerOk_straps (bytes : List Byte) : (answerOk bytes s).straps = s.straps := rfl
@[simp] theorem answerOk_strapPins (bytes : List Byte) : (answerOk bytes s).strapPins = s.strapPins := rfl
@[simp] theorem answerOk_freeCount (bytes : List Byte) : (answerOk bytes s).freeCount = s.freeCount := rfl
@[simp] theorem answerOk_pending (bytes : List Byte) : (answerOk bytes s).pending = s.pending := rfl

@[simp] theorem addRecord_port (r : Record) : (addRecord r s).port = s.port := rfl
@[simp] theorem addRecord_tickets (r : Record) : (addRecord r s).tickets = s.tickets := rfl
@[simp] theorem addRecord_hostQueue (r : Record) : (addRecord r s).hostQueue = s.hostQueue := rfl
@[simp] theorem addRecord_hostRetry (r : Record) : (addRecord r s).hostRetry = s.hostRetry := rfl
@[simp] theorem addRecord_busyWait (r : Record) : (addRecord r s).busyWait = s.busyWait := rfl
@[simp] theorem addRecord_round (r : Record) : (addRecord r s).round = s.round := rfl
@[simp] theorem addRecord_copyRetry (r : Record) : (addRecord r s).copyRetry = s.copyRetry := rfl
@[simp] theorem addRecord_replica (r : Record) : (addRecord r s).replica = s.replica := rfl
@[simp] theorem addRecord_ecc (r : Record) : (addRecord r s).ecc = s.ecc := rfl
@[simp] theorem addRecord_lateDamage (r : Record) : (addRecord r s).lateDamage = s.lateDamage := rfl
@[simp] theorem addRecord_monitor (r : Record) : (addRecord r s).monitor = s.monitor := rfl
@[simp] theorem addRecord_listening (r : Record) : (addRecord r s).listening = s.listening := rfl
@[simp] theorem addRecord_join (r : Record) : (addRecord r s).join = s.join := rfl
@[simp] theorem addRecord_declines (r : Record) : (addRecord r s).declines = s.declines := rfl
@[simp] theorem addRecord_copy (r : Record) : (addRecord r s).copy = s.copy := rfl
@[simp] theorem addRecord_leases (r : Record) : (addRecord r s).leases = s.leases := rfl
@[simp] theorem addRecord_expireSet (r : Record) : (addRecord r s).expireSet = s.expireSet := rfl
@[simp] theorem addRecord_inbound (r : Record) : (addRecord r s).inbound = s.inbound := rfl
@[simp] theorem addRecord_records (r : Record) : (addRecord r s).records = enqueue r s.records := rfl
@[simp] theorem addRecord_fault (r : Record) : (addRecord r s).fault = s.fault := rfl
@[simp] theorem addRecord_counters (r : Record) : (addRecord r s).counters = s.counters := rfl
@[simp] theorem addRecord_life (r : Record) : (addRecord r s).life = s.life := rfl
@[simp] theorem addRecord_exclusionReason (r : Record) : (addRecord r s).exclusionReason = s.exclusionReason := rfl
@[simp] theorem addRecord_haltReason (r : Record) : (addRecord r s).haltReason = s.haltReason := rfl
@[simp] theorem addRecord_config (r : Record) : (addRecord r s).config = s.config := rfl
@[simp] theorem addRecord_foundingCount (r : Record) : (addRecord r s).foundingCount = s.foundingCount := rfl
@[simp] theorem addRecord_rejoin (r : Record) : (addRecord r s).rejoin = s.rejoin := rfl
@[simp] theorem addRecord_pendingLeave (r : Record) : (addRecord r s).pendingLeave = s.pendingLeave := rfl
@[simp] theorem addRecord_pendingStop (r : Record) : (addRecord r s).pendingStop = s.pendingStop := rfl
@[simp] theorem addRecord_straps (r : Record) : (addRecord r s).straps = s.straps := rfl
@[simp] theorem addRecord_strapPins (r : Record) : (addRecord r s).strapPins = s.strapPins := rfl
@[simp] theorem addRecord_freeCount (r : Record) : (addRecord r s).freeCount = s.freeCount := rfl
@[simp] theorem addRecord_pending (r : Record) : (addRecord r s).pending = s.pending := rfl

@[simp] theorem freeTicket_port (t : TicketId) : (freeTicket t s).port = s.port := rfl
@[simp] theorem freeTicket_tickets (t : TicketId) : (freeTicket t s).tickets = put s.tickets t none := rfl
@[simp] theorem freeTicket_hostQueue (t : TicketId) : (freeTicket t s).hostQueue = s.hostQueue := rfl
@[simp] theorem freeTicket_hostRetry (t : TicketId) : (freeTicket t s).hostRetry = s.hostRetry := rfl
@[simp] theorem freeTicket_busyWait (t : TicketId) : (freeTicket t s).busyWait = s.busyWait := rfl
@[simp] theorem freeTicket_round (t : TicketId) : (freeTicket t s).round = s.round := rfl
@[simp] theorem freeTicket_copyRetry (t : TicketId) : (freeTicket t s).copyRetry = s.copyRetry := rfl
@[simp] theorem freeTicket_replica (t : TicketId) : (freeTicket t s).replica = s.replica := rfl
@[simp] theorem freeTicket_ecc (t : TicketId) : (freeTicket t s).ecc = s.ecc := rfl
@[simp] theorem freeTicket_lateDamage (t : TicketId) : (freeTicket t s).lateDamage = s.lateDamage := rfl
@[simp] theorem freeTicket_monitor (t : TicketId) : (freeTicket t s).monitor = s.monitor := rfl
@[simp] theorem freeTicket_listening (t : TicketId) : (freeTicket t s).listening = s.listening := rfl
@[simp] theorem freeTicket_join (t : TicketId) : (freeTicket t s).join = s.join := rfl
@[simp] theorem freeTicket_declines (t : TicketId) : (freeTicket t s).declines = s.declines := rfl
@[simp] theorem freeTicket_copy (t : TicketId) : (freeTicket t s).copy = s.copy := rfl
@[simp] theorem freeTicket_leases (t : TicketId) : (freeTicket t s).leases = s.leases := rfl
@[simp] theorem freeTicket_expireSet (t : TicketId) : (freeTicket t s).expireSet = s.expireSet := rfl
@[simp] theorem freeTicket_inbound (t : TicketId) : (freeTicket t s).inbound = s.inbound := rfl
@[simp] theorem freeTicket_records (t : TicketId) : (freeTicket t s).records = s.records := rfl
@[simp] theorem freeTicket_fault (t : TicketId) : (freeTicket t s).fault = s.fault := rfl
@[simp] theorem freeTicket_counters (t : TicketId) : (freeTicket t s).counters = s.counters := rfl
@[simp] theorem freeTicket_life (t : TicketId) : (freeTicket t s).life = s.life := rfl
@[simp] theorem freeTicket_exclusionReason (t : TicketId) : (freeTicket t s).exclusionReason = s.exclusionReason := rfl
@[simp] theorem freeTicket_haltReason (t : TicketId) : (freeTicket t s).haltReason = s.haltReason := rfl
@[simp] theorem freeTicket_config (t : TicketId) : (freeTicket t s).config = s.config := rfl
@[simp] theorem freeTicket_foundingCount (t : TicketId) : (freeTicket t s).foundingCount = s.foundingCount := rfl
@[simp] theorem freeTicket_rejoin (t : TicketId) : (freeTicket t s).rejoin = s.rejoin := rfl
@[simp] theorem freeTicket_pendingLeave (t : TicketId) : (freeTicket t s).pendingLeave = s.pendingLeave := rfl
@[simp] theorem freeTicket_pendingStop (t : TicketId) : (freeTicket t s).pendingStop = s.pendingStop := rfl
@[simp] theorem freeTicket_straps (t : TicketId) : (freeTicket t s).straps = s.straps := rfl
@[simp] theorem freeTicket_strapPins (t : TicketId) : (freeTicket t s).strapPins = s.strapPins := rfl
@[simp] theorem freeTicket_freeCount (t : TicketId) : (freeTicket t s).freeCount = s.freeCount := rfl
@[simp] theorem freeTicket_pending (t : TicketId) : (freeTicket t s).pending = s.pending := rfl

@[simp] theorem startLease_port (t : TicketId) : (startLease t s).port = s.port := rfl
@[simp] theorem startLease_tickets (t : TicketId) : (startLease t s).tickets = s.tickets := rfl
@[simp] theorem startLease_hostQueue (t : TicketId) : (startLease t s).hostQueue = s.hostQueue := rfl
@[simp] theorem startLease_hostRetry (t : TicketId) : (startLease t s).hostRetry = s.hostRetry := rfl
@[simp] theorem startLease_busyWait (t : TicketId) : (startLease t s).busyWait = s.busyWait := rfl
@[simp] theorem startLease_round (t : TicketId) : (startLease t s).round = s.round := rfl
@[simp] theorem startLease_copyRetry (t : TicketId) : (startLease t s).copyRetry = s.copyRetry := rfl
@[simp] theorem startLease_replica (t : TicketId) : (startLease t s).replica = s.replica := rfl
@[simp] theorem startLease_ecc (t : TicketId) : (startLease t s).ecc = s.ecc := rfl
@[simp] theorem startLease_lateDamage (t : TicketId) : (startLease t s).lateDamage = s.lateDamage := rfl
@[simp] theorem startLease_monitor (t : TicketId) : (startLease t s).monitor = s.monitor := rfl
@[simp] theorem startLease_listening (t : TicketId) : (startLease t s).listening = s.listening := rfl
@[simp] theorem startLease_join (t : TicketId) : (startLease t s).join = s.join := rfl
@[simp] theorem startLease_declines (t : TicketId) : (startLease t s).declines = s.declines := rfl
@[simp] theorem startLease_copy (t : TicketId) : (startLease t s).copy = s.copy := rfl
@[simp] theorem startLease_expireSet (t : TicketId) : (startLease t s).expireSet = s.expireSet := rfl
@[simp] theorem startLease_inbound (t : TicketId) : (startLease t s).inbound = s.inbound := rfl
@[simp] theorem startLease_records (t : TicketId) : (startLease t s).records = s.records := rfl
@[simp] theorem startLease_fault (t : TicketId) : (startLease t s).fault = s.fault := rfl
@[simp] theorem startLease_counters (t : TicketId) : (startLease t s).counters = s.counters := rfl
@[simp] theorem startLease_life (t : TicketId) : (startLease t s).life = s.life := rfl
@[simp] theorem startLease_exclusionReason (t : TicketId) : (startLease t s).exclusionReason = s.exclusionReason := rfl
@[simp] theorem startLease_haltReason (t : TicketId) : (startLease t s).haltReason = s.haltReason := rfl
@[simp] theorem startLease_config (t : TicketId) : (startLease t s).config = s.config := rfl
@[simp] theorem startLease_foundingCount (t : TicketId) : (startLease t s).foundingCount = s.foundingCount := rfl
@[simp] theorem startLease_rejoin (t : TicketId) : (startLease t s).rejoin = s.rejoin := rfl
@[simp] theorem startLease_pendingLeave (t : TicketId) : (startLease t s).pendingLeave = s.pendingLeave := rfl
@[simp] theorem startLease_pendingStop (t : TicketId) : (startLease t s).pendingStop = s.pendingStop := rfl
@[simp] theorem startLease_straps (t : TicketId) : (startLease t s).straps = s.straps := rfl
@[simp] theorem startLease_strapPins (t : TicketId) : (startLease t s).strapPins = s.strapPins := rfl
@[simp] theorem startLease_freeCount (t : TicketId) : (startLease t s).freeCount = s.freeCount := rfl
@[simp] theorem startLease_pending (t : TicketId) : (startLease t s).pending = s.pending := rfl

@[simp] theorem cancelLease_port (t : TicketId) : (cancelLease t s).port = s.port := rfl
@[simp] theorem cancelLease_tickets (t : TicketId) : (cancelLease t s).tickets = s.tickets := rfl
@[simp] theorem cancelLease_hostQueue (t : TicketId) : (cancelLease t s).hostQueue = s.hostQueue := rfl
@[simp] theorem cancelLease_hostRetry (t : TicketId) : (cancelLease t s).hostRetry = s.hostRetry := rfl
@[simp] theorem cancelLease_busyWait (t : TicketId) : (cancelLease t s).busyWait = s.busyWait := rfl
@[simp] theorem cancelLease_round (t : TicketId) : (cancelLease t s).round = s.round := rfl
@[simp] theorem cancelLease_copyRetry (t : TicketId) : (cancelLease t s).copyRetry = s.copyRetry := rfl
@[simp] theorem cancelLease_replica (t : TicketId) : (cancelLease t s).replica = s.replica := rfl
@[simp] theorem cancelLease_ecc (t : TicketId) : (cancelLease t s).ecc = s.ecc := rfl
@[simp] theorem cancelLease_lateDamage (t : TicketId) : (cancelLease t s).lateDamage = s.lateDamage := rfl
@[simp] theorem cancelLease_monitor (t : TicketId) : (cancelLease t s).monitor = s.monitor := rfl
@[simp] theorem cancelLease_listening (t : TicketId) : (cancelLease t s).listening = s.listening := rfl
@[simp] theorem cancelLease_join (t : TicketId) : (cancelLease t s).join = s.join := rfl
@[simp] theorem cancelLease_declines (t : TicketId) : (cancelLease t s).declines = s.declines := rfl
@[simp] theorem cancelLease_copy (t : TicketId) : (cancelLease t s).copy = s.copy := rfl
@[simp] theorem cancelLease_expireSet (t : TicketId) : (cancelLease t s).expireSet = s.expireSet := rfl
@[simp] theorem cancelLease_inbound (t : TicketId) : (cancelLease t s).inbound = s.inbound := rfl
@[simp] theorem cancelLease_records (t : TicketId) : (cancelLease t s).records = s.records := rfl
@[simp] theorem cancelLease_fault (t : TicketId) : (cancelLease t s).fault = s.fault := rfl
@[simp] theorem cancelLease_counters (t : TicketId) : (cancelLease t s).counters = s.counters := rfl
@[simp] theorem cancelLease_life (t : TicketId) : (cancelLease t s).life = s.life := rfl
@[simp] theorem cancelLease_exclusionReason (t : TicketId) : (cancelLease t s).exclusionReason = s.exclusionReason := rfl
@[simp] theorem cancelLease_haltReason (t : TicketId) : (cancelLease t s).haltReason = s.haltReason := rfl
@[simp] theorem cancelLease_config (t : TicketId) : (cancelLease t s).config = s.config := rfl
@[simp] theorem cancelLease_foundingCount (t : TicketId) : (cancelLease t s).foundingCount = s.foundingCount := rfl
@[simp] theorem cancelLease_rejoin (t : TicketId) : (cancelLease t s).rejoin = s.rejoin := rfl
@[simp] theorem cancelLease_pendingLeave (t : TicketId) : (cancelLease t s).pendingLeave = s.pendingLeave := rfl
@[simp] theorem cancelLease_pendingStop (t : TicketId) : (cancelLease t s).pendingStop = s.pendingStop := rfl
@[simp] theorem cancelLease_straps (t : TicketId) : (cancelLease t s).straps = s.straps := rfl
@[simp] theorem cancelLease_strapPins (t : TicketId) : (cancelLease t s).strapPins = s.strapPins := rfl
@[simp] theorem cancelLease_freeCount (t : TicketId) : (cancelLease t s).freeCount = s.freeCount := rfl
@[simp] theorem cancelLease_pending (t : TicketId) : (cancelLease t s).pending = s.pending := rfl

@[simp] theorem endLease_port (k : LockId) : (endLease k s).port = s.port := rfl
@[simp] theorem endLease_tickets (k : LockId) : (endLease k s).tickets = s.tickets := rfl
@[simp] theorem endLease_hostQueue (k : LockId) : (endLease k s).hostQueue = s.hostQueue := rfl
@[simp] theorem endLease_hostRetry (k : LockId) : (endLease k s).hostRetry = s.hostRetry := rfl
@[simp] theorem endLease_busyWait (k : LockId) : (endLease k s).busyWait = s.busyWait := rfl
@[simp] theorem endLease_round (k : LockId) : (endLease k s).round = s.round := rfl
@[simp] theorem endLease_copyRetry (k : LockId) : (endLease k s).copyRetry = s.copyRetry := rfl
@[simp] theorem endLease_replica (k : LockId) : (endLease k s).replica = s.replica := rfl
@[simp] theorem endLease_ecc (k : LockId) : (endLease k s).ecc = s.ecc := rfl
@[simp] theorem endLease_lateDamage (k : LockId) : (endLease k s).lateDamage = s.lateDamage := rfl
@[simp] theorem endLease_monitor (k : LockId) : (endLease k s).monitor = s.monitor := rfl
@[simp] theorem endLease_listening (k : LockId) : (endLease k s).listening = s.listening := rfl
@[simp] theorem endLease_join (k : LockId) : (endLease k s).join = s.join := rfl
@[simp] theorem endLease_declines (k : LockId) : (endLease k s).declines = s.declines := rfl
@[simp] theorem endLease_copy (k : LockId) : (endLease k s).copy = s.copy := rfl
@[simp] theorem endLease_inbound (k : LockId) : (endLease k s).inbound = s.inbound := rfl
@[simp] theorem endLease_records (k : LockId) : (endLease k s).records = s.records := rfl
@[simp] theorem endLease_fault (k : LockId) : (endLease k s).fault = s.fault := rfl
@[simp] theorem endLease_counters (k : LockId) : (endLease k s).counters = s.counters := rfl
@[simp] theorem endLease_life (k : LockId) : (endLease k s).life = s.life := rfl
@[simp] theorem endLease_exclusionReason (k : LockId) : (endLease k s).exclusionReason = s.exclusionReason := rfl
@[simp] theorem endLease_haltReason (k : LockId) : (endLease k s).haltReason = s.haltReason := rfl
@[simp] theorem endLease_config (k : LockId) : (endLease k s).config = s.config := rfl
@[simp] theorem endLease_foundingCount (k : LockId) : (endLease k s).foundingCount = s.foundingCount := rfl
@[simp] theorem endLease_rejoin (k : LockId) : (endLease k s).rejoin = s.rejoin := rfl
@[simp] theorem endLease_pendingLeave (k : LockId) : (endLease k s).pendingLeave = s.pendingLeave := rfl
@[simp] theorem endLease_pendingStop (k : LockId) : (endLease k s).pendingStop = s.pendingStop := rfl
@[simp] theorem endLease_straps (k : LockId) : (endLease k s).straps = s.straps := rfl
@[simp] theorem endLease_strapPins (k : LockId) : (endLease k s).strapPins = s.strapPins := rfl
@[simp] theorem endLease_freeCount (k : LockId) : (endLease k s).freeCount = s.freeCount := rfl
@[simp] theorem endLease_pending (k : LockId) : (endLease k s).pending = s.pending := rfl

@[simp] theorem reportLease_port (k : LockId) : (reportLease k s).port = s.port := rfl
@[simp] theorem reportLease_tickets (k : LockId) : (reportLease k s).tickets = s.tickets := rfl
@[simp] theorem reportLease_hostQueue (k : LockId) : (reportLease k s).hostQueue = s.hostQueue := rfl
@[simp] theorem reportLease_hostRetry (k : LockId) : (reportLease k s).hostRetry = s.hostRetry := rfl
@[simp] theorem reportLease_busyWait (k : LockId) : (reportLease k s).busyWait = s.busyWait := rfl
@[simp] theorem reportLease_round (k : LockId) : (reportLease k s).round = s.round := rfl
@[simp] theorem reportLease_copyRetry (k : LockId) : (reportLease k s).copyRetry = s.copyRetry := rfl
@[simp] theorem reportLease_replica (k : LockId) : (reportLease k s).replica = s.replica := rfl
@[simp] theorem reportLease_ecc (k : LockId) : (reportLease k s).ecc = s.ecc := rfl
@[simp] theorem reportLease_lateDamage (k : LockId) : (reportLease k s).lateDamage = s.lateDamage := rfl
@[simp] theorem reportLease_monitor (k : LockId) : (reportLease k s).monitor = s.monitor := rfl
@[simp] theorem reportLease_listening (k : LockId) : (reportLease k s).listening = s.listening := rfl
@[simp] theorem reportLease_join (k : LockId) : (reportLease k s).join = s.join := rfl
@[simp] theorem reportLease_declines (k : LockId) : (reportLease k s).declines = s.declines := rfl
@[simp] theorem reportLease_copy (k : LockId) : (reportLease k s).copy = s.copy := rfl
@[simp] theorem reportLease_inbound (k : LockId) : (reportLease k s).inbound = s.inbound := rfl
@[simp] theorem reportLease_records (k : LockId) : (reportLease k s).records = s.records := rfl
@[simp] theorem reportLease_fault (k : LockId) : (reportLease k s).fault = s.fault := rfl
@[simp] theorem reportLease_counters (k : LockId) : (reportLease k s).counters = s.counters := rfl
@[simp] theorem reportLease_life (k : LockId) : (reportLease k s).life = s.life := rfl
@[simp] theorem reportLease_exclusionReason (k : LockId) : (reportLease k s).exclusionReason = s.exclusionReason := rfl
@[simp] theorem reportLease_haltReason (k : LockId) : (reportLease k s).haltReason = s.haltReason := rfl
@[simp] theorem reportLease_config (k : LockId) : (reportLease k s).config = s.config := rfl
@[simp] theorem reportLease_foundingCount (k : LockId) : (reportLease k s).foundingCount = s.foundingCount := rfl
@[simp] theorem reportLease_rejoin (k : LockId) : (reportLease k s).rejoin = s.rejoin := rfl
@[simp] theorem reportLease_pendingLeave (k : LockId) : (reportLease k s).pendingLeave = s.pendingLeave := rfl
@[simp] theorem reportLease_pendingStop (k : LockId) : (reportLease k s).pendingStop = s.pendingStop := rfl
@[simp] theorem reportLease_straps (k : LockId) : (reportLease k s).straps = s.straps := rfl
@[simp] theorem reportLease_strapPins (k : LockId) : (reportLease k s).strapPins = s.strapPins := rfl
@[simp] theorem reportLease_freeCount (k : LockId) : (reportLease k s).freeCount = s.freeCount := rfl
@[simp] theorem reportLease_pending (k : LockId) : (reportLease k s).pending = s.pending := rfl

@[simp] theorem countVetoCast_port : (countVetoCast s).port = s.port := rfl
@[simp] theorem countVetoCast_tickets : (countVetoCast s).tickets = s.tickets := rfl
@[simp] theorem countVetoCast_hostQueue : (countVetoCast s).hostQueue = s.hostQueue := rfl
@[simp] theorem countVetoCast_hostRetry : (countVetoCast s).hostRetry = s.hostRetry := rfl
@[simp] theorem countVetoCast_busyWait : (countVetoCast s).busyWait = s.busyWait := rfl
@[simp] theorem countVetoCast_round : (countVetoCast s).round = s.round := rfl
@[simp] theorem countVetoCast_copyRetry : (countVetoCast s).copyRetry = s.copyRetry := rfl
@[simp] theorem countVetoCast_replica : (countVetoCast s).replica = s.replica := rfl
@[simp] theorem countVetoCast_ecc : (countVetoCast s).ecc = s.ecc := rfl
@[simp] theorem countVetoCast_lateDamage : (countVetoCast s).lateDamage = s.lateDamage := rfl
@[simp] theorem countVetoCast_monitor : (countVetoCast s).monitor = s.monitor := rfl
@[simp] theorem countVetoCast_listening : (countVetoCast s).listening = s.listening := rfl
@[simp] theorem countVetoCast_join : (countVetoCast s).join = s.join := rfl
@[simp] theorem countVetoCast_declines : (countVetoCast s).declines = s.declines := rfl
@[simp] theorem countVetoCast_copy : (countVetoCast s).copy = s.copy := rfl
@[simp] theorem countVetoCast_leases : (countVetoCast s).leases = s.leases := rfl
@[simp] theorem countVetoCast_expireSet : (countVetoCast s).expireSet = s.expireSet := rfl
@[simp] theorem countVetoCast_inbound : (countVetoCast s).inbound = s.inbound := rfl
@[simp] theorem countVetoCast_records : (countVetoCast s).records = s.records := rfl
@[simp] theorem countVetoCast_fault : (countVetoCast s).fault = s.fault := rfl
@[simp] theorem countVetoCast_life : (countVetoCast s).life = s.life := rfl
@[simp] theorem countVetoCast_exclusionReason : (countVetoCast s).exclusionReason = s.exclusionReason := rfl
@[simp] theorem countVetoCast_haltReason : (countVetoCast s).haltReason = s.haltReason := rfl
@[simp] theorem countVetoCast_config : (countVetoCast s).config = s.config := rfl
@[simp] theorem countVetoCast_foundingCount : (countVetoCast s).foundingCount = s.foundingCount := rfl
@[simp] theorem countVetoCast_rejoin : (countVetoCast s).rejoin = s.rejoin := rfl
@[simp] theorem countVetoCast_pendingLeave : (countVetoCast s).pendingLeave = s.pendingLeave := rfl
@[simp] theorem countVetoCast_pendingStop : (countVetoCast s).pendingStop = s.pendingStop := rfl
@[simp] theorem countVetoCast_straps : (countVetoCast s).straps = s.straps := rfl
@[simp] theorem countVetoCast_strapPins : (countVetoCast s).strapPins = s.strapPins := rfl
@[simp] theorem countVetoCast_freeCount : (countVetoCast s).freeCount = s.freeCount := rfl
@[simp] theorem countVetoCast_pending : (countVetoCast s).pending = s.pending := rfl

@[simp] theorem countOwnVoided_port : (countOwnVoided s).port = s.port := rfl
@[simp] theorem countOwnVoided_tickets : (countOwnVoided s).tickets = s.tickets := rfl
@[simp] theorem countOwnVoided_hostQueue : (countOwnVoided s).hostQueue = s.hostQueue := rfl
@[simp] theorem countOwnVoided_hostRetry : (countOwnVoided s).hostRetry = s.hostRetry := rfl
@[simp] theorem countOwnVoided_busyWait : (countOwnVoided s).busyWait = s.busyWait := rfl
@[simp] theorem countOwnVoided_round : (countOwnVoided s).round = s.round := rfl
@[simp] theorem countOwnVoided_copyRetry : (countOwnVoided s).copyRetry = s.copyRetry := rfl
@[simp] theorem countOwnVoided_replica : (countOwnVoided s).replica = s.replica := rfl
@[simp] theorem countOwnVoided_ecc : (countOwnVoided s).ecc = s.ecc := rfl
@[simp] theorem countOwnVoided_lateDamage : (countOwnVoided s).lateDamage = s.lateDamage := rfl
@[simp] theorem countOwnVoided_monitor : (countOwnVoided s).monitor = s.monitor := rfl
@[simp] theorem countOwnVoided_listening : (countOwnVoided s).listening = s.listening := rfl
@[simp] theorem countOwnVoided_join : (countOwnVoided s).join = s.join := rfl
@[simp] theorem countOwnVoided_declines : (countOwnVoided s).declines = s.declines := rfl
@[simp] theorem countOwnVoided_copy : (countOwnVoided s).copy = s.copy := rfl
@[simp] theorem countOwnVoided_leases : (countOwnVoided s).leases = s.leases := rfl
@[simp] theorem countOwnVoided_expireSet : (countOwnVoided s).expireSet = s.expireSet := rfl
@[simp] theorem countOwnVoided_inbound : (countOwnVoided s).inbound = s.inbound := rfl
@[simp] theorem countOwnVoided_records : (countOwnVoided s).records = s.records := rfl
@[simp] theorem countOwnVoided_fault : (countOwnVoided s).fault = s.fault := rfl
@[simp] theorem countOwnVoided_life : (countOwnVoided s).life = s.life := rfl
@[simp] theorem countOwnVoided_exclusionReason : (countOwnVoided s).exclusionReason = s.exclusionReason := rfl
@[simp] theorem countOwnVoided_haltReason : (countOwnVoided s).haltReason = s.haltReason := rfl
@[simp] theorem countOwnVoided_config : (countOwnVoided s).config = s.config := rfl
@[simp] theorem countOwnVoided_foundingCount : (countOwnVoided s).foundingCount = s.foundingCount := rfl
@[simp] theorem countOwnVoided_rejoin : (countOwnVoided s).rejoin = s.rejoin := rfl
@[simp] theorem countOwnVoided_pendingLeave : (countOwnVoided s).pendingLeave = s.pendingLeave := rfl
@[simp] theorem countOwnVoided_pendingStop : (countOwnVoided s).pendingStop = s.pendingStop := rfl
@[simp] theorem countOwnVoided_straps : (countOwnVoided s).straps = s.straps := rfl
@[simp] theorem countOwnVoided_strapPins : (countOwnVoided s).strapPins = s.strapPins := rfl
@[simp] theorem countOwnVoided_freeCount : (countOwnVoided s).freeCount = s.freeCount := rfl
@[simp] theorem countOwnVoided_pending : (countOwnVoided s).pending = s.pending := rfl

@[simp] theorem countDropped_port : (countDropped s).port = s.port := rfl
@[simp] theorem countDropped_tickets : (countDropped s).tickets = s.tickets := rfl
@[simp] theorem countDropped_hostQueue : (countDropped s).hostQueue = s.hostQueue := rfl
@[simp] theorem countDropped_hostRetry : (countDropped s).hostRetry = s.hostRetry := rfl
@[simp] theorem countDropped_busyWait : (countDropped s).busyWait = s.busyWait := rfl
@[simp] theorem countDropped_round : (countDropped s).round = s.round := rfl
@[simp] theorem countDropped_copyRetry : (countDropped s).copyRetry = s.copyRetry := rfl
@[simp] theorem countDropped_replica : (countDropped s).replica = s.replica := rfl
@[simp] theorem countDropped_ecc : (countDropped s).ecc = s.ecc := rfl
@[simp] theorem countDropped_lateDamage : (countDropped s).lateDamage = s.lateDamage := rfl
@[simp] theorem countDropped_monitor : (countDropped s).monitor = s.monitor := rfl
@[simp] theorem countDropped_listening : (countDropped s).listening = s.listening := rfl
@[simp] theorem countDropped_join : (countDropped s).join = s.join := rfl
@[simp] theorem countDropped_declines : (countDropped s).declines = s.declines := rfl
@[simp] theorem countDropped_copy : (countDropped s).copy = s.copy := rfl
@[simp] theorem countDropped_leases : (countDropped s).leases = s.leases := rfl
@[simp] theorem countDropped_expireSet : (countDropped s).expireSet = s.expireSet := rfl
@[simp] theorem countDropped_inbound : (countDropped s).inbound = s.inbound := rfl
@[simp] theorem countDropped_records : (countDropped s).records = s.records := rfl
@[simp] theorem countDropped_fault : (countDropped s).fault = s.fault := rfl
@[simp] theorem countDropped_life : (countDropped s).life = s.life := rfl
@[simp] theorem countDropped_exclusionReason : (countDropped s).exclusionReason = s.exclusionReason := rfl
@[simp] theorem countDropped_haltReason : (countDropped s).haltReason = s.haltReason := rfl
@[simp] theorem countDropped_config : (countDropped s).config = s.config := rfl
@[simp] theorem countDropped_foundingCount : (countDropped s).foundingCount = s.foundingCount := rfl
@[simp] theorem countDropped_rejoin : (countDropped s).rejoin = s.rejoin := rfl
@[simp] theorem countDropped_pendingLeave : (countDropped s).pendingLeave = s.pendingLeave := rfl
@[simp] theorem countDropped_pendingStop : (countDropped s).pendingStop = s.pendingStop := rfl
@[simp] theorem countDropped_straps : (countDropped s).straps = s.straps := rfl
@[simp] theorem countDropped_strapPins : (countDropped s).strapPins = s.strapPins := rfl
@[simp] theorem countDropped_freeCount : (countDropped s).freeCount = s.freeCount := rfl
@[simp] theorem countDropped_pending : (countDropped s).pending = s.pending := rfl

@[simp] theorem countCorrected_port (n : Nat) : (countCorrected n s).port = s.port := rfl
@[simp] theorem countCorrected_tickets (n : Nat) : (countCorrected n s).tickets = s.tickets := rfl
@[simp] theorem countCorrected_hostQueue (n : Nat) : (countCorrected n s).hostQueue = s.hostQueue := rfl
@[simp] theorem countCorrected_hostRetry (n : Nat) : (countCorrected n s).hostRetry = s.hostRetry := rfl
@[simp] theorem countCorrected_busyWait (n : Nat) : (countCorrected n s).busyWait = s.busyWait := rfl
@[simp] theorem countCorrected_round (n : Nat) : (countCorrected n s).round = s.round := rfl
@[simp] theorem countCorrected_copyRetry (n : Nat) : (countCorrected n s).copyRetry = s.copyRetry := rfl
@[simp] theorem countCorrected_replica (n : Nat) : (countCorrected n s).replica = s.replica := rfl
@[simp] theorem countCorrected_ecc (n : Nat) : (countCorrected n s).ecc = s.ecc := rfl
@[simp] theorem countCorrected_lateDamage (n : Nat) : (countCorrected n s).lateDamage = s.lateDamage := rfl
@[simp] theorem countCorrected_monitor (n : Nat) : (countCorrected n s).monitor = s.monitor := rfl
@[simp] theorem countCorrected_listening (n : Nat) : (countCorrected n s).listening = s.listening := rfl
@[simp] theorem countCorrected_join (n : Nat) : (countCorrected n s).join = s.join := rfl
@[simp] theorem countCorrected_declines (n : Nat) : (countCorrected n s).declines = s.declines := rfl
@[simp] theorem countCorrected_copy (n : Nat) : (countCorrected n s).copy = s.copy := rfl
@[simp] theorem countCorrected_leases (n : Nat) : (countCorrected n s).leases = s.leases := rfl
@[simp] theorem countCorrected_expireSet (n : Nat) : (countCorrected n s).expireSet = s.expireSet := rfl
@[simp] theorem countCorrected_inbound (n : Nat) : (countCorrected n s).inbound = s.inbound := rfl
@[simp] theorem countCorrected_records (n : Nat) : (countCorrected n s).records = s.records := rfl
@[simp] theorem countCorrected_fault (n : Nat) : (countCorrected n s).fault = s.fault := rfl
@[simp] theorem countCorrected_life (n : Nat) : (countCorrected n s).life = s.life := rfl
@[simp] theorem countCorrected_exclusionReason (n : Nat) : (countCorrected n s).exclusionReason = s.exclusionReason := rfl
@[simp] theorem countCorrected_haltReason (n : Nat) : (countCorrected n s).haltReason = s.haltReason := rfl
@[simp] theorem countCorrected_config (n : Nat) : (countCorrected n s).config = s.config := rfl
@[simp] theorem countCorrected_foundingCount (n : Nat) : (countCorrected n s).foundingCount = s.foundingCount := rfl
@[simp] theorem countCorrected_rejoin (n : Nat) : (countCorrected n s).rejoin = s.rejoin := rfl
@[simp] theorem countCorrected_pendingLeave (n : Nat) : (countCorrected n s).pendingLeave = s.pendingLeave := rfl
@[simp] theorem countCorrected_pendingStop (n : Nat) : (countCorrected n s).pendingStop = s.pendingStop := rfl
@[simp] theorem countCorrected_straps (n : Nat) : (countCorrected n s).straps = s.straps := rfl
@[simp] theorem countCorrected_strapPins (n : Nat) : (countCorrected n s).strapPins = s.strapPins := rfl
@[simp] theorem countCorrected_freeCount (n : Nat) : (countCorrected n s).freeCount = s.freeCount := rfl
@[simp] theorem countCorrected_pending (n : Nat) : (countCorrected n s).pending = s.pending := rfl

@[simp] theorem popHead_port : (popHead s).port = s.port := rfl
@[simp] theorem popHead_tickets : (popHead s).tickets = s.tickets := rfl
@[simp] theorem popHead_hostQueue : (popHead s).hostQueue = s.hostQueue.tail := rfl
@[simp] theorem popHead_hostRetry : (popHead s).hostRetry = .zero := rfl
@[simp] theorem popHead_busyWait : (popHead s).busyWait = none := rfl
@[simp] theorem popHead_round : (popHead s).round = s.round := rfl
@[simp] theorem popHead_copyRetry : (popHead s).copyRetry = s.copyRetry := rfl
@[simp] theorem popHead_replica : (popHead s).replica = s.replica := rfl
@[simp] theorem popHead_ecc : (popHead s).ecc = s.ecc := rfl
@[simp] theorem popHead_lateDamage : (popHead s).lateDamage = s.lateDamage := rfl
@[simp] theorem popHead_monitor : (popHead s).monitor = s.monitor := rfl
@[simp] theorem popHead_listening : (popHead s).listening = s.listening := rfl
@[simp] theorem popHead_join : (popHead s).join = s.join := rfl
@[simp] theorem popHead_declines : (popHead s).declines = s.declines := rfl
@[simp] theorem popHead_copy : (popHead s).copy = s.copy := rfl
@[simp] theorem popHead_leases : (popHead s).leases = s.leases := rfl
@[simp] theorem popHead_expireSet : (popHead s).expireSet = s.expireSet := rfl
@[simp] theorem popHead_inbound : (popHead s).inbound = s.inbound := rfl
@[simp] theorem popHead_records : (popHead s).records = s.records := rfl
@[simp] theorem popHead_fault : (popHead s).fault = s.fault := rfl
@[simp] theorem popHead_counters : (popHead s).counters = s.counters := rfl
@[simp] theorem popHead_life : (popHead s).life = s.life := rfl
@[simp] theorem popHead_exclusionReason : (popHead s).exclusionReason = s.exclusionReason := rfl
@[simp] theorem popHead_haltReason : (popHead s).haltReason = s.haltReason := rfl
@[simp] theorem popHead_config : (popHead s).config = s.config := rfl
@[simp] theorem popHead_foundingCount : (popHead s).foundingCount = s.foundingCount := rfl
@[simp] theorem popHead_rejoin : (popHead s).rejoin = s.rejoin := rfl
@[simp] theorem popHead_pendingLeave : (popHead s).pendingLeave = s.pendingLeave := rfl
@[simp] theorem popHead_pendingStop : (popHead s).pendingStop = s.pendingStop := rfl
@[simp] theorem popHead_straps : (popHead s).straps = s.straps := rfl
@[simp] theorem popHead_strapPins : (popHead s).strapPins = s.strapPins := rfl
@[simp] theorem popHead_freeCount : (popHead s).freeCount = s.freeCount := rfl
@[simp] theorem popHead_pending : (popHead s).pending = s.pending := rfl

@[simp] theorem clearReplica_port : (clearReplica s).port = s.port := rfl
@[simp] theorem clearReplica_tickets : (clearReplica s).tickets = s.tickets := rfl
@[simp] theorem clearReplica_hostQueue : (clearReplica s).hostQueue = s.hostQueue := rfl
@[simp] theorem clearReplica_hostRetry : (clearReplica s).hostRetry = s.hostRetry := rfl
@[simp] theorem clearReplica_busyWait : (clearReplica s).busyWait = s.busyWait := rfl
@[simp] theorem clearReplica_round : (clearReplica s).round = s.round := rfl
@[simp] theorem clearReplica_copyRetry : (clearReplica s).copyRetry = s.copyRetry := rfl
@[simp] theorem clearReplica_replica : (clearReplica s).replica = .cleared := rfl
@[simp] theorem clearReplica_ecc : (clearReplica s).ecc = .sound := rfl
@[simp] theorem clearReplica_lateDamage : (clearReplica s).lateDamage = s.lateDamage := rfl
@[simp] theorem clearReplica_monitor : (clearReplica s).monitor = s.monitor := rfl
@[simp] theorem clearReplica_listening : (clearReplica s).listening = s.listening := rfl
@[simp] theorem clearReplica_join : (clearReplica s).join = s.join := rfl
@[simp] theorem clearReplica_declines : (clearReplica s).declines = s.declines := rfl
@[simp] theorem clearReplica_copy : (clearReplica s).copy = s.copy := rfl
@[simp] theorem clearReplica_leases : (clearReplica s).leases = s.leases := rfl
@[simp] theorem clearReplica_expireSet : (clearReplica s).expireSet = s.expireSet := rfl
@[simp] theorem clearReplica_inbound : (clearReplica s).inbound = s.inbound := rfl
@[simp] theorem clearReplica_records : (clearReplica s).records = s.records := rfl
@[simp] theorem clearReplica_fault : (clearReplica s).fault = s.fault := rfl
@[simp] theorem clearReplica_counters : (clearReplica s).counters = s.counters := rfl
@[simp] theorem clearReplica_life : (clearReplica s).life = s.life := rfl
@[simp] theorem clearReplica_exclusionReason : (clearReplica s).exclusionReason = s.exclusionReason := rfl
@[simp] theorem clearReplica_haltReason : (clearReplica s).haltReason = s.haltReason := rfl
@[simp] theorem clearReplica_config : (clearReplica s).config = s.config := rfl
@[simp] theorem clearReplica_foundingCount : (clearReplica s).foundingCount = s.foundingCount := rfl
@[simp] theorem clearReplica_rejoin : (clearReplica s).rejoin = s.rejoin := rfl
@[simp] theorem clearReplica_pendingLeave : (clearReplica s).pendingLeave = s.pendingLeave := rfl
@[simp] theorem clearReplica_pendingStop : (clearReplica s).pendingStop = s.pendingStop := rfl
@[simp] theorem clearReplica_straps : (clearReplica s).straps = s.straps := rfl
@[simp] theorem clearReplica_strapPins : (clearReplica s).strapPins = s.strapPins := rfl
@[simp] theorem clearReplica_freeCount : (clearReplica s).freeCount = s.freeCount := rfl
@[simp] theorem clearReplica_pending : (clearReplica s).pending = s.pending := rfl

@[simp] theorem clearLocal_port : (clearLocal s).port = s.port := rfl
@[simp] theorem clearLocal_tickets : (clearLocal s).tickets = Vector.replicate 16 none := rfl
@[simp] theorem clearLocal_hostQueue : (clearLocal s).hostQueue = [] := rfl
@[simp] theorem clearLocal_hostRetry : (clearLocal s).hostRetry = .zero := rfl
@[simp] theorem clearLocal_busyWait : (clearLocal s).busyWait = none := rfl
@[simp] theorem clearLocal_round : (clearLocal s).round = s.round := rfl
@[simp] theorem clearLocal_copyRetry : (clearLocal s).copyRetry = .zero := rfl
@[simp] theorem clearLocal_replica : (clearLocal s).replica = s.replica := rfl
@[simp] theorem clearLocal_ecc : (clearLocal s).ecc = s.ecc := rfl
@[simp] theorem clearLocal_lateDamage : (clearLocal s).lateDamage = s.lateDamage := rfl
@[simp] theorem clearLocal_monitor : (clearLocal s).monitor = .stopped := rfl
@[simp] theorem clearLocal_listening : (clearLocal s).listening = .stopped := rfl
@[simp] theorem clearLocal_join : (clearLocal s).join = .none := rfl
@[simp] theorem clearLocal_declines : (clearLocal s).declines = [] := rfl
@[simp] theorem clearLocal_copy : (clearLocal s).copy = none := rfl
@[simp] theorem clearLocal_leases : (clearLocal s).leases = [] := rfl
@[simp] theorem clearLocal_expireSet : (clearLocal s).expireSet = noLocks := rfl
@[simp] theorem clearLocal_inbound : (clearLocal s).inbound = s.inbound := rfl
@[simp] theorem clearLocal_records : (clearLocal s).records = s.records := rfl
@[simp] theorem clearLocal_fault : (clearLocal s).fault = s.fault := rfl
@[simp] theorem clearLocal_counters : (clearLocal s).counters = s.counters := rfl
@[simp] theorem clearLocal_life : (clearLocal s).life = s.life := rfl
@[simp] theorem clearLocal_exclusionReason : (clearLocal s).exclusionReason = s.exclusionReason := rfl
@[simp] theorem clearLocal_haltReason : (clearLocal s).haltReason = s.haltReason := rfl
@[simp] theorem clearLocal_config : (clearLocal s).config = s.config := rfl
@[simp] theorem clearLocal_foundingCount : (clearLocal s).foundingCount = s.foundingCount := rfl
@[simp] theorem clearLocal_rejoin : (clearLocal s).rejoin = s.rejoin := rfl
@[simp] theorem clearLocal_pendingLeave : (clearLocal s).pendingLeave = none := rfl
@[simp] theorem clearLocal_pendingStop : (clearLocal s).pendingStop = s.pendingStop := rfl
@[simp] theorem clearLocal_straps : (clearLocal s).straps = s.straps := rfl
@[simp] theorem clearLocal_strapPins : (clearLocal s).strapPins = s.strapPins := rfl
@[simp] theorem clearLocal_freeCount : (clearLocal s).freeCount = s.freeCount := rfl
@[simp] theorem clearLocal_pending : (clearLocal s).pending = s.pending := rfl

@[simp] theorem restartRecords_port (c : StateChange) : (restartRecords c s).port = s.port := rfl
@[simp] theorem restartRecords_tickets (c : StateChange) : (restartRecords c s).tickets = s.tickets := rfl
@[simp] theorem restartRecords_hostQueue (c : StateChange) : (restartRecords c s).hostQueue = s.hostQueue := rfl
@[simp] theorem restartRecords_hostRetry (c : StateChange) : (restartRecords c s).hostRetry = s.hostRetry := rfl
@[simp] theorem restartRecords_busyWait (c : StateChange) : (restartRecords c s).busyWait = s.busyWait := rfl
@[simp] theorem restartRecords_round (c : StateChange) : (restartRecords c s).round = s.round := rfl
@[simp] theorem restartRecords_copyRetry (c : StateChange) : (restartRecords c s).copyRetry = s.copyRetry := rfl
@[simp] theorem restartRecords_replica (c : StateChange) : (restartRecords c s).replica = s.replica := rfl
@[simp] theorem restartRecords_ecc (c : StateChange) : (restartRecords c s).ecc = s.ecc := rfl
@[simp] theorem restartRecords_lateDamage (c : StateChange) : (restartRecords c s).lateDamage = s.lateDamage := rfl
@[simp] theorem restartRecords_monitor (c : StateChange) : (restartRecords c s).monitor = s.monitor := rfl
@[simp] theorem restartRecords_listening (c : StateChange) : (restartRecords c s).listening = s.listening := rfl
@[simp] theorem restartRecords_join (c : StateChange) : (restartRecords c s).join = s.join := rfl
@[simp] theorem restartRecords_declines (c : StateChange) : (restartRecords c s).declines = s.declines := rfl
@[simp] theorem restartRecords_copy (c : StateChange) : (restartRecords c s).copy = s.copy := rfl
@[simp] theorem restartRecords_leases (c : StateChange) : (restartRecords c s).leases = s.leases := rfl
@[simp] theorem restartRecords_expireSet (c : StateChange) : (restartRecords c s).expireSet = s.expireSet := rfl
@[simp] theorem restartRecords_inbound (c : StateChange) : (restartRecords c s).inbound = s.inbound := rfl
@[simp] theorem restartRecords_fault (c : StateChange) : (restartRecords c s).fault = s.fault := rfl
@[simp] theorem restartRecords_counters (c : StateChange) : (restartRecords c s).counters = s.counters := rfl
@[simp] theorem restartRecords_life (c : StateChange) : (restartRecords c s).life = s.life := rfl
@[simp] theorem restartRecords_exclusionReason (c : StateChange) : (restartRecords c s).exclusionReason = s.exclusionReason := rfl
@[simp] theorem restartRecords_haltReason (c : StateChange) : (restartRecords c s).haltReason = s.haltReason := rfl
@[simp] theorem restartRecords_config (c : StateChange) : (restartRecords c s).config = s.config := rfl
@[simp] theorem restartRecords_foundingCount (c : StateChange) : (restartRecords c s).foundingCount = s.foundingCount := rfl
@[simp] theorem restartRecords_rejoin (c : StateChange) : (restartRecords c s).rejoin = s.rejoin := rfl
@[simp] theorem restartRecords_pendingLeave (c : StateChange) : (restartRecords c s).pendingLeave = s.pendingLeave := rfl
@[simp] theorem restartRecords_pendingStop (c : StateChange) : (restartRecords c s).pendingStop = s.pendingStop := rfl
@[simp] theorem restartRecords_straps (c : StateChange) : (restartRecords c s).straps = s.straps := rfl
@[simp] theorem restartRecords_strapPins (c : StateChange) : (restartRecords c s).strapPins = s.strapPins := rfl
@[simp] theorem restartRecords_freeCount (c : StateChange) : (restartRecords c s).freeCount = s.freeCount := rfl
@[simp] theorem restartRecords_pending (c : StateChange) : (restartRecords c s).pending = s.pending := rfl

@[simp] theorem dropOffers_port : (dropOffers s).port = s.port := rfl
@[simp] theorem dropOffers_tickets : (dropOffers s).tickets = s.tickets := rfl
@[simp] theorem dropOffers_hostQueue : (dropOffers s).hostQueue = s.hostQueue := rfl
@[simp] theorem dropOffers_hostRetry : (dropOffers s).hostRetry = s.hostRetry := rfl
@[simp] theorem dropOffers_busyWait : (dropOffers s).busyWait = s.busyWait := rfl
@[simp] theorem dropOffers_copyRetry : (dropOffers s).copyRetry = s.copyRetry := rfl
@[simp] theorem dropOffers_replica : (dropOffers s).replica = s.replica := rfl
@[simp] theorem dropOffers_ecc : (dropOffers s).ecc = s.ecc := rfl
@[simp] theorem dropOffers_lateDamage : (dropOffers s).lateDamage = s.lateDamage := rfl
@[simp] theorem dropOffers_monitor : (dropOffers s).monitor = s.monitor := rfl
@[simp] theorem dropOffers_listening : (dropOffers s).listening = s.listening := rfl
@[simp] theorem dropOffers_join : (dropOffers s).join = s.join := rfl
@[simp] theorem dropOffers_declines : (dropOffers s).declines = s.declines := rfl
@[simp] theorem dropOffers_copy : (dropOffers s).copy = s.copy := rfl
@[simp] theorem dropOffers_leases : (dropOffers s).leases = s.leases := rfl
@[simp] theorem dropOffers_expireSet : (dropOffers s).expireSet = s.expireSet := rfl
@[simp] theorem dropOffers_inbound : (dropOffers s).inbound = s.inbound := rfl
@[simp] theorem dropOffers_records : (dropOffers s).records = s.records := rfl
@[simp] theorem dropOffers_fault : (dropOffers s).fault = s.fault := rfl
@[simp] theorem dropOffers_counters : (dropOffers s).counters = s.counters := rfl
@[simp] theorem dropOffers_life : (dropOffers s).life = s.life := rfl
@[simp] theorem dropOffers_exclusionReason : (dropOffers s).exclusionReason = s.exclusionReason := rfl
@[simp] theorem dropOffers_haltReason : (dropOffers s).haltReason = s.haltReason := rfl
@[simp] theorem dropOffers_config : (dropOffers s).config = s.config := rfl
@[simp] theorem dropOffers_foundingCount : (dropOffers s).foundingCount = s.foundingCount := rfl
@[simp] theorem dropOffers_rejoin : (dropOffers s).rejoin = s.rejoin := rfl
@[simp] theorem dropOffers_pendingLeave : (dropOffers s).pendingLeave = s.pendingLeave := rfl
@[simp] theorem dropOffers_pendingStop : (dropOffers s).pendingStop = s.pendingStop := rfl
@[simp] theorem dropOffers_straps : (dropOffers s).straps = s.straps := rfl
@[simp] theorem dropOffers_strapPins : (dropOffers s).strapPins = s.strapPins := rfl
@[simp] theorem dropOffers_freeCount : (dropOffers s).freeCount = s.freeCount := rfl
@[simp] theorem dropOffers_pending : (dropOffers s).pending = s.pending := rfl

@[simp] theorem setExcluded_port (r : ExclusionReason) : (setExcluded r s).port = s.port := rfl
@[simp] theorem setExcluded_tickets (r : ExclusionReason) : (setExcluded r s).tickets = s.tickets := rfl
@[simp] theorem setExcluded_hostQueue (r : ExclusionReason) : (setExcluded r s).hostQueue = s.hostQueue := rfl
@[simp] theorem setExcluded_hostRetry (r : ExclusionReason) : (setExcluded r s).hostRetry = s.hostRetry := rfl
@[simp] theorem setExcluded_busyWait (r : ExclusionReason) : (setExcluded r s).busyWait = s.busyWait := rfl
@[simp] theorem setExcluded_copyRetry (r : ExclusionReason) : (setExcluded r s).copyRetry = s.copyRetry := rfl
@[simp] theorem setExcluded_replica (r : ExclusionReason) : (setExcluded r s).replica = s.replica := rfl
@[simp] theorem setExcluded_ecc (r : ExclusionReason) : (setExcluded r s).ecc = s.ecc := rfl
@[simp] theorem setExcluded_lateDamage (r : ExclusionReason) : (setExcluded r s).lateDamage = s.lateDamage := rfl
@[simp] theorem setExcluded_monitor (r : ExclusionReason) : (setExcluded r s).monitor = s.monitor := rfl
@[simp] theorem setExcluded_listening (r : ExclusionReason) : (setExcluded r s).listening = s.listening := rfl
@[simp] theorem setExcluded_join (r : ExclusionReason) : (setExcluded r s).join = s.join := rfl
@[simp] theorem setExcluded_declines (r : ExclusionReason) : (setExcluded r s).declines = s.declines := rfl
@[simp] theorem setExcluded_copy (r : ExclusionReason) : (setExcluded r s).copy = s.copy := rfl
@[simp] theorem setExcluded_leases (r : ExclusionReason) : (setExcluded r s).leases = s.leases := rfl
@[simp] theorem setExcluded_expireSet (r : ExclusionReason) : (setExcluded r s).expireSet = s.expireSet := rfl
@[simp] theorem setExcluded_inbound (r : ExclusionReason) : (setExcluded r s).inbound = s.inbound := rfl
@[simp] theorem setExcluded_records (r : ExclusionReason) : (setExcluded r s).records = s.records := rfl
@[simp] theorem setExcluded_fault (r : ExclusionReason) : (setExcluded r s).fault = s.fault := rfl
@[simp] theorem setExcluded_counters (r : ExclusionReason) : (setExcluded r s).counters = s.counters := rfl
@[simp] theorem setExcluded_life (r : ExclusionReason) : (setExcluded r s).life = .excluded := rfl
@[simp] theorem setExcluded_exclusionReason (r : ExclusionReason) : (setExcluded r s).exclusionReason = some r := rfl
@[simp] theorem setExcluded_haltReason (r : ExclusionReason) : (setExcluded r s).haltReason = none := rfl
@[simp] theorem setExcluded_config (r : ExclusionReason) : (setExcluded r s).config = s.config := rfl
@[simp] theorem setExcluded_foundingCount (r : ExclusionReason) : (setExcluded r s).foundingCount = s.foundingCount := rfl
@[simp] theorem setExcluded_pendingLeave (r : ExclusionReason) : (setExcluded r s).pendingLeave = s.pendingLeave := rfl
@[simp] theorem setExcluded_straps (r : ExclusionReason) : (setExcluded r s).straps = s.straps := rfl
@[simp] theorem setExcluded_strapPins (r : ExclusionReason) : (setExcluded r s).strapPins = s.strapPins := rfl
@[simp] theorem setExcluded_freeCount (r : ExclusionReason) : (setExcluded r s).freeCount = s.freeCount := rfl
@[simp] theorem setExcluded_pending (r : ExclusionReason) : (setExcluded r s).pending = s.pending := rfl

@[simp] theorem setHalted_port (r : StopReason) (p : Option StopReason) : (setHalted r p s).port = s.port := rfl
@[simp] theorem setHalted_tickets (r : StopReason) (p : Option StopReason) : (setHalted r p s).tickets = s.tickets := rfl
@[simp] theorem setHalted_hostQueue (r : StopReason) (p : Option StopReason) : (setHalted r p s).hostQueue = s.hostQueue := rfl
@[simp] theorem setHalted_hostRetry (r : StopReason) (p : Option StopReason) : (setHalted r p s).hostRetry = s.hostRetry := rfl
@[simp] theorem setHalted_busyWait (r : StopReason) (p : Option StopReason) : (setHalted r p s).busyWait = s.busyWait := rfl
@[simp] theorem setHalted_round (r : StopReason) (p : Option StopReason) : (setHalted r p s).round = s.round := rfl
@[simp] theorem setHalted_copyRetry (r : StopReason) (p : Option StopReason) : (setHalted r p s).copyRetry = s.copyRetry := rfl
@[simp] theorem setHalted_replica (r : StopReason) (p : Option StopReason) : (setHalted r p s).replica = s.replica := rfl
@[simp] theorem setHalted_ecc (r : StopReason) (p : Option StopReason) : (setHalted r p s).ecc = s.ecc := rfl
@[simp] theorem setHalted_lateDamage (r : StopReason) (p : Option StopReason) : (setHalted r p s).lateDamage = s.lateDamage := rfl
@[simp] theorem setHalted_monitor (r : StopReason) (p : Option StopReason) : (setHalted r p s).monitor = s.monitor := rfl
@[simp] theorem setHalted_listening (r : StopReason) (p : Option StopReason) : (setHalted r p s).listening = s.listening := rfl
@[simp] theorem setHalted_join (r : StopReason) (p : Option StopReason) : (setHalted r p s).join = s.join := rfl
@[simp] theorem setHalted_declines (r : StopReason) (p : Option StopReason) : (setHalted r p s).declines = s.declines := rfl
@[simp] theorem setHalted_copy (r : StopReason) (p : Option StopReason) : (setHalted r p s).copy = s.copy := rfl
@[simp] theorem setHalted_leases (r : StopReason) (p : Option StopReason) : (setHalted r p s).leases = s.leases := rfl
@[simp] theorem setHalted_expireSet (r : StopReason) (p : Option StopReason) : (setHalted r p s).expireSet = s.expireSet := rfl
@[simp] theorem setHalted_inbound (r : StopReason) (p : Option StopReason) : (setHalted r p s).inbound = s.inbound := rfl
@[simp] theorem setHalted_records (r : StopReason) (p : Option StopReason) : (setHalted r p s).records = s.records := rfl
@[simp] theorem setHalted_fault (r : StopReason) (p : Option StopReason) : (setHalted r p s).fault = s.fault := rfl
@[simp] theorem setHalted_counters (r : StopReason) (p : Option StopReason) : (setHalted r p s).counters = s.counters := rfl
@[simp] theorem setHalted_life (r : StopReason) (p : Option StopReason) : (setHalted r p s).life = .halted := rfl
@[simp] theorem setHalted_exclusionReason (r : StopReason) (p : Option StopReason) : (setHalted r p s).exclusionReason = none := rfl
@[simp] theorem setHalted_haltReason (r : StopReason) (p : Option StopReason) : (setHalted r p s).haltReason = some r := rfl
@[simp] theorem setHalted_config (r : StopReason) (p : Option StopReason) : (setHalted r p s).config = s.config := rfl
@[simp] theorem setHalted_foundingCount (r : StopReason) (p : Option StopReason) : (setHalted r p s).foundingCount = s.foundingCount := rfl
@[simp] theorem setHalted_rejoin (r : StopReason) (p : Option StopReason) : (setHalted r p s).rejoin = none := rfl
@[simp] theorem setHalted_pendingLeave (r : StopReason) (p : Option StopReason) : (setHalted r p s).pendingLeave = s.pendingLeave := rfl
@[simp] theorem setHalted_pendingStop (r : StopReason) (p : Option StopReason) : (setHalted r p s).pendingStop = p := rfl
@[simp] theorem setHalted_straps (r : StopReason) (p : Option StopReason) : (setHalted r p s).straps = s.straps := rfl
@[simp] theorem setHalted_strapPins (r : StopReason) (p : Option StopReason) : (setHalted r p s).strapPins = s.strapPins := rfl
@[simp] theorem setHalted_freeCount (r : StopReason) (p : Option StopReason) : (setHalted r p s).freeCount = s.freeCount := rfl
@[simp] theorem setHalted_pending (r : StopReason) (p : Option StopReason) : (setHalted r p s).pending = s.pending := rfl

@[simp] theorem exclude_port (r : ExclusionReason) : (exclude r s).port = s.port := rfl
@[simp] theorem exclude_tickets (r : ExclusionReason) : (exclude r s).tickets = Vector.replicate 16 none := rfl
@[simp] theorem exclude_hostQueue (r : ExclusionReason) : (exclude r s).hostQueue = [] := rfl
@[simp] theorem exclude_hostRetry (r : ExclusionReason) : (exclude r s).hostRetry = .zero := rfl
@[simp] theorem exclude_busyWait (r : ExclusionReason) : (exclude r s).busyWait = none := rfl
@[simp] theorem exclude_copyRetry (r : ExclusionReason) : (exclude r s).copyRetry = .zero := rfl
@[simp] theorem exclude_replica (r : ExclusionReason) : (exclude r s).replica = .cleared := rfl
@[simp] theorem exclude_ecc (r : ExclusionReason) : (exclude r s).ecc = .sound := rfl
@[simp] theorem exclude_lateDamage (r : ExclusionReason) : (exclude r s).lateDamage = s.lateDamage := rfl
@[simp] theorem exclude_monitor (r : ExclusionReason) : (exclude r s).monitor = .stopped := rfl
@[simp] theorem exclude_listening (r : ExclusionReason) : (exclude r s).listening = .stopped := rfl
@[simp] theorem exclude_join (r : ExclusionReason) : (exclude r s).join = .none := rfl
@[simp] theorem exclude_declines (r : ExclusionReason) : (exclude r s).declines = [] := rfl
@[simp] theorem exclude_copy (r : ExclusionReason) : (exclude r s).copy = none := rfl
@[simp] theorem exclude_leases (r : ExclusionReason) : (exclude r s).leases = [] := rfl
@[simp] theorem exclude_expireSet (r : ExclusionReason) : (exclude r s).expireSet = noLocks := rfl
@[simp] theorem exclude_inbound (r : ExclusionReason) : (exclude r s).inbound = s.inbound := rfl
@[simp] theorem exclude_fault (r : ExclusionReason) : (exclude r s).fault = s.fault := rfl
@[simp] theorem exclude_counters (r : ExclusionReason) : (exclude r s).counters = s.counters := rfl
@[simp] theorem exclude_life (r : ExclusionReason) : (exclude r s).life = .excluded := rfl
@[simp] theorem exclude_exclusionReason (r : ExclusionReason) : (exclude r s).exclusionReason = some r := rfl
@[simp] theorem exclude_haltReason (r : ExclusionReason) : (exclude r s).haltReason = none := rfl
@[simp] theorem exclude_config (r : ExclusionReason) : (exclude r s).config = s.config := rfl
@[simp] theorem exclude_foundingCount (r : ExclusionReason) : (exclude r s).foundingCount = s.foundingCount := rfl
@[simp] theorem exclude_pendingLeave (r : ExclusionReason) : (exclude r s).pendingLeave = none := rfl
@[simp] theorem exclude_straps (r : ExclusionReason) : (exclude r s).straps = s.straps := rfl
@[simp] theorem exclude_strapPins (r : ExclusionReason) : (exclude r s).strapPins = s.strapPins := rfl
@[simp] theorem exclude_freeCount (r : ExclusionReason) : (exclude r s).freeCount = s.freeCount := rfl
@[simp] theorem exclude_pending (r : ExclusionReason) : (exclude r s).pending = s.pending := rfl

@[simp] theorem enterHalted_port (r : StopReason) (p : Option StopReason) : (enterHalted r p s).port = s.port := rfl
@[simp] theorem enterHalted_tickets (r : StopReason) (p : Option StopReason) : (enterHalted r p s).tickets = Vector.replicate 16 none := rfl
@[simp] theorem enterHalted_hostQueue (r : StopReason) (p : Option StopReason) : (enterHalted r p s).hostQueue = [] := rfl
@[simp] theorem enterHalted_hostRetry (r : StopReason) (p : Option StopReason) : (enterHalted r p s).hostRetry = .zero := rfl
@[simp] theorem enterHalted_busyWait (r : StopReason) (p : Option StopReason) : (enterHalted r p s).busyWait = none := rfl
@[simp] theorem enterHalted_copyRetry (r : StopReason) (p : Option StopReason) : (enterHalted r p s).copyRetry = .zero := rfl
@[simp] theorem enterHalted_replica (r : StopReason) (p : Option StopReason) : (enterHalted r p s).replica = s.replica := rfl
@[simp] theorem enterHalted_ecc (r : StopReason) (p : Option StopReason) : (enterHalted r p s).ecc = s.ecc := rfl
@[simp] theorem enterHalted_lateDamage (r : StopReason) (p : Option StopReason) : (enterHalted r p s).lateDamage = s.lateDamage := rfl
@[simp] theorem enterHalted_monitor (r : StopReason) (p : Option StopReason) : (enterHalted r p s).monitor = .stopped := rfl
@[simp] theorem enterHalted_listening (r : StopReason) (p : Option StopReason) : (enterHalted r p s).listening = .stopped := rfl
@[simp] theorem enterHalted_join (r : StopReason) (p : Option StopReason) : (enterHalted r p s).join = .none := rfl
@[simp] theorem enterHalted_declines (r : StopReason) (p : Option StopReason) : (enterHalted r p s).declines = [] := rfl
@[simp] theorem enterHalted_copy (r : StopReason) (p : Option StopReason) : (enterHalted r p s).copy = none := rfl
@[simp] theorem enterHalted_leases (r : StopReason) (p : Option StopReason) : (enterHalted r p s).leases = [] := rfl
@[simp] theorem enterHalted_expireSet (r : StopReason) (p : Option StopReason) : (enterHalted r p s).expireSet = noLocks := rfl
@[simp] theorem enterHalted_inbound (r : StopReason) (p : Option StopReason) : (enterHalted r p s).inbound = s.inbound := rfl
@[simp] theorem enterHalted_fault (r : StopReason) (p : Option StopReason) : (enterHalted r p s).fault = s.fault := rfl
@[simp] theorem enterHalted_counters (r : StopReason) (p : Option StopReason) : (enterHalted r p s).counters = s.counters := rfl
@[simp] theorem enterHalted_life (r : StopReason) (p : Option StopReason) : (enterHalted r p s).life = .halted := rfl
@[simp] theorem enterHalted_exclusionReason (r : StopReason) (p : Option StopReason) : (enterHalted r p s).exclusionReason = none := rfl
@[simp] theorem enterHalted_haltReason (r : StopReason) (p : Option StopReason) : (enterHalted r p s).haltReason = some r := rfl
@[simp] theorem enterHalted_config (r : StopReason) (p : Option StopReason) : (enterHalted r p s).config = s.config := rfl
@[simp] theorem enterHalted_foundingCount (r : StopReason) (p : Option StopReason) : (enterHalted r p s).foundingCount = s.foundingCount := rfl
@[simp] theorem enterHalted_rejoin (r : StopReason) (p : Option StopReason) : (enterHalted r p s).rejoin = none := rfl
@[simp] theorem enterHalted_pendingLeave (r : StopReason) (p : Option StopReason) : (enterHalted r p s).pendingLeave = none := rfl
@[simp] theorem enterHalted_pendingStop (r : StopReason) (p : Option StopReason) : (enterHalted r p s).pendingStop = p := rfl
@[simp] theorem enterHalted_straps (r : StopReason) (p : Option StopReason) : (enterHalted r p s).straps = s.straps := rfl
@[simp] theorem enterHalted_strapPins (r : StopReason) (p : Option StopReason) : (enterHalted r p s).strapPins = s.strapPins := rfl
@[simp] theorem enterHalted_freeCount (r : StopReason) (p : Option StopReason) : (enterHalted r p s).freeCount = s.freeCount := rfl
@[simp] theorem enterHalted_pending (r : StopReason) (p : Option StopReason) : (enterHalted r p s).pending = s.pending := rfl

@[simp] theorem enterListening_port (b : Bool) : (enterListening b s).port = s.port := rfl
@[simp] theorem enterListening_tickets (b : Bool) : (enterListening b s).tickets = s.tickets := rfl
@[simp] theorem enterListening_hostQueue (b : Bool) : (enterListening b s).hostQueue = s.hostQueue := rfl
@[simp] theorem enterListening_hostRetry (b : Bool) : (enterListening b s).hostRetry = s.hostRetry := rfl
@[simp] theorem enterListening_busyWait (b : Bool) : (enterListening b s).busyWait = s.busyWait := rfl
@[simp] theorem enterListening_copyRetry (b : Bool) : (enterListening b s).copyRetry = s.copyRetry := rfl
@[simp] theorem enterListening_replica (b : Bool) : (enterListening b s).replica = s.replica := rfl
@[simp] theorem enterListening_ecc (b : Bool) : (enterListening b s).ecc = s.ecc := rfl
@[simp] theorem enterListening_lateDamage (b : Bool) : (enterListening b s).lateDamage = s.lateDamage := rfl
@[simp] theorem enterListening_monitor (b : Bool) : (enterListening b s).monitor = s.monitor := rfl
@[simp] theorem enterListening_join (b : Bool) : (enterListening b s).join = .none := rfl
@[simp] theorem enterListening_declines (b : Bool) : (enterListening b s).declines = s.declines := rfl
@[simp] theorem enterListening_copy (b : Bool) : (enterListening b s).copy = s.copy := rfl
@[simp] theorem enterListening_leases (b : Bool) : (enterListening b s).leases = s.leases := rfl
@[simp] theorem enterListening_expireSet (b : Bool) : (enterListening b s).expireSet = s.expireSet := rfl
@[simp] theorem enterListening_inbound (b : Bool) : (enterListening b s).inbound = s.inbound := rfl
@[simp] theorem enterListening_records (b : Bool) : (enterListening b s).records = s.records := rfl
@[simp] theorem enterListening_fault (b : Bool) : (enterListening b s).fault = s.fault := rfl
@[simp] theorem enterListening_counters (b : Bool) : (enterListening b s).counters = s.counters := rfl
@[simp] theorem enterListening_life (b : Bool) : (enterListening b s).life = .listening := rfl
@[simp] theorem enterListening_exclusionReason (b : Bool) : (enterListening b s).exclusionReason = none := rfl
@[simp] theorem enterListening_haltReason (b : Bool) : (enterListening b s).haltReason = none := rfl
@[simp] theorem enterListening_config (b : Bool) : (enterListening b s).config = s.config := rfl
@[simp] theorem enterListening_foundingCount (b : Bool) : (enterListening b s).foundingCount = s.foundingCount := rfl
@[simp] theorem enterListening_rejoin (b : Bool) : (enterListening b s).rejoin = s.rejoin := rfl
@[simp] theorem enterListening_pendingLeave (b : Bool) : (enterListening b s).pendingLeave = none := rfl
@[simp] theorem enterListening_pendingStop (b : Bool) : (enterListening b s).pendingStop = s.pendingStop := rfl
@[simp] theorem enterListening_straps (b : Bool) : (enterListening b s).straps = s.straps := rfl
@[simp] theorem enterListening_strapPins (b : Bool) : (enterListening b s).strapPins = s.strapPins := rfl
@[simp] theorem enterListening_freeCount (b : Bool) : (enterListening b s).freeCount = s.freeCount := rfl
@[simp] theorem enterListening_pending (b : Bool) : (enterListening b s).pending = s.pending := rfl

@[simp] theorem endRound_port : (endRound s).port = s.port := rfl
@[simp] theorem endRound_tickets : (endRound s).tickets = s.tickets := rfl
@[simp] theorem endRound_hostQueue : (endRound s).hostQueue = s.hostQueue := rfl
@[simp] theorem endRound_hostRetry : (endRound s).hostRetry = s.hostRetry := rfl
@[simp] theorem endRound_busyWait : (endRound s).busyWait = s.busyWait := rfl
@[simp] theorem endRound_copyRetry : (endRound s).copyRetry = s.copyRetry := rfl
@[simp] theorem endRound_replica : (endRound s).replica = s.replica := rfl
@[simp] theorem endRound_ecc : (endRound s).ecc = s.ecc := rfl
@[simp] theorem endRound_lateDamage : (endRound s).lateDamage = s.lateDamage := rfl
@[simp] theorem endRound_monitor : (endRound s).monitor = s.monitor := rfl
@[simp] theorem endRound_listening : (endRound s).listening = s.listening := rfl
@[simp] theorem endRound_join : (endRound s).join = s.join := rfl
@[simp] theorem endRound_declines : (endRound s).declines = s.declines := rfl
@[simp] theorem endRound_copy : (endRound s).copy = s.copy := rfl
@[simp] theorem endRound_leases : (endRound s).leases = s.leases := rfl
@[simp] theorem endRound_expireSet : (endRound s).expireSet = s.expireSet := rfl
@[simp] theorem endRound_inbound : (endRound s).inbound = s.inbound := rfl
@[simp] theorem endRound_records : (endRound s).records = s.records := rfl
@[simp] theorem endRound_fault : (endRound s).fault = s.fault := rfl
@[simp] theorem endRound_counters : (endRound s).counters = s.counters := rfl
@[simp] theorem endRound_life : (endRound s).life = s.life := rfl
@[simp] theorem endRound_exclusionReason : (endRound s).exclusionReason = s.exclusionReason := rfl
@[simp] theorem endRound_haltReason : (endRound s).haltReason = s.haltReason := rfl
@[simp] theorem endRound_config : (endRound s).config = s.config := rfl
@[simp] theorem endRound_foundingCount : (endRound s).foundingCount = s.foundingCount := rfl
@[simp] theorem endRound_rejoin : (endRound s).rejoin = s.rejoin := rfl
@[simp] theorem endRound_pendingLeave : (endRound s).pendingLeave = s.pendingLeave := rfl
@[simp] theorem endRound_pendingStop : (endRound s).pendingStop = s.pendingStop := rfl
@[simp] theorem endRound_straps : (endRound s).straps = s.straps := rfl
@[simp] theorem endRound_strapPins : (endRound s).strapPins = s.strapPins := rfl
@[simp] theorem endRound_freeCount : (endRound s).freeCount = s.freeCount := rfl
@[simp] theorem endRound_pending : (endRound s).pending = s.pending := rfl

@[simp] theorem placeRequest_port : (placeRequest s).port = s.port := rfl
@[simp] theorem placeRequest_tickets : (placeRequest s).tickets = s.tickets := rfl
@[simp] theorem placeRequest_hostQueue : (placeRequest s).hostQueue = s.hostQueue := rfl
@[simp] theorem placeRequest_hostRetry : (placeRequest s).hostRetry = s.hostRetry := rfl
@[simp] theorem placeRequest_busyWait : (placeRequest s).busyWait = s.busyWait := rfl
@[simp] theorem placeRequest_copyRetry : (placeRequest s).copyRetry = s.copyRetry := rfl
@[simp] theorem placeRequest_replica : (placeRequest s).replica = s.replica := rfl
@[simp] theorem placeRequest_ecc : (placeRequest s).ecc = s.ecc := rfl
@[simp] theorem placeRequest_lateDamage : (placeRequest s).lateDamage = s.lateDamage := rfl
@[simp] theorem placeRequest_monitor : (placeRequest s).monitor = s.monitor := rfl
@[simp] theorem placeRequest_listening : (placeRequest s).listening = s.listening := rfl
@[simp] theorem placeRequest_join : (placeRequest s).join = s.join := rfl
@[simp] theorem placeRequest_declines : (placeRequest s).declines = s.declines := rfl
@[simp] theorem placeRequest_copy : (placeRequest s).copy = s.copy := rfl
@[simp] theorem placeRequest_leases : (placeRequest s).leases = s.leases := rfl
@[simp] theorem placeRequest_expireSet : (placeRequest s).expireSet = s.expireSet := rfl
@[simp] theorem placeRequest_inbound : (placeRequest s).inbound = s.inbound := rfl
@[simp] theorem placeRequest_records : (placeRequest s).records = s.records := rfl
@[simp] theorem placeRequest_fault : (placeRequest s).fault = s.fault := rfl
@[simp] theorem placeRequest_counters : (placeRequest s).counters = s.counters := rfl
@[simp] theorem placeRequest_life : (placeRequest s).life = s.life := rfl
@[simp] theorem placeRequest_exclusionReason : (placeRequest s).exclusionReason = s.exclusionReason := rfl
@[simp] theorem placeRequest_haltReason : (placeRequest s).haltReason = s.haltReason := rfl
@[simp] theorem placeRequest_config : (placeRequest s).config = s.config := rfl
@[simp] theorem placeRequest_foundingCount : (placeRequest s).foundingCount = s.foundingCount := rfl
@[simp] theorem placeRequest_rejoin : (placeRequest s).rejoin = s.rejoin := rfl
@[simp] theorem placeRequest_pendingLeave : (placeRequest s).pendingLeave = s.pendingLeave := rfl
@[simp] theorem placeRequest_pendingStop : (placeRequest s).pendingStop = s.pendingStop := rfl
@[simp] theorem placeRequest_straps : (placeRequest s).straps = s.straps := rfl
@[simp] theorem placeRequest_strapPins : (placeRequest s).strapPins = s.strapPins := rfl
@[simp] theorem placeRequest_freeCount : (placeRequest s).freeCount = s.freeCount := rfl
@[simp] theorem placeRequest_pending : (placeRequest s).pending = s.pending := rfl

@[simp] theorem hearSender_port (x : StationId) : (hearSender x s).port = s.port := rfl
@[simp] theorem hearSender_tickets (x : StationId) : (hearSender x s).tickets = s.tickets := rfl
@[simp] theorem hearSender_hostQueue (x : StationId) : (hearSender x s).hostQueue = s.hostQueue := rfl
@[simp] theorem hearSender_hostRetry (x : StationId) : (hearSender x s).hostRetry = s.hostRetry := rfl
@[simp] theorem hearSender_busyWait (x : StationId) : (hearSender x s).busyWait = s.busyWait := rfl
@[simp] theorem hearSender_round (x : StationId) : (hearSender x s).round = s.round := rfl
@[simp] theorem hearSender_copyRetry (x : StationId) : (hearSender x s).copyRetry = s.copyRetry := rfl
@[simp] theorem hearSender_replica (x : StationId) : (hearSender x s).replica = s.replica := rfl
@[simp] theorem hearSender_ecc (x : StationId) : (hearSender x s).ecc = s.ecc := rfl
@[simp] theorem hearSender_lateDamage (x : StationId) : (hearSender x s).lateDamage = s.lateDamage := rfl
@[simp] theorem hearSender_listening (x : StationId) : (hearSender x s).listening = s.listening := rfl
@[simp] theorem hearSender_join (x : StationId) : (hearSender x s).join = s.join := rfl
@[simp] theorem hearSender_declines (x : StationId) : (hearSender x s).declines = s.declines := rfl
@[simp] theorem hearSender_copy (x : StationId) : (hearSender x s).copy = s.copy := rfl
@[simp] theorem hearSender_leases (x : StationId) : (hearSender x s).leases = s.leases := rfl
@[simp] theorem hearSender_expireSet (x : StationId) : (hearSender x s).expireSet = s.expireSet := rfl
@[simp] theorem hearSender_inbound (x : StationId) : (hearSender x s).inbound = s.inbound := rfl
@[simp] theorem hearSender_records (x : StationId) : (hearSender x s).records = s.records := rfl
@[simp] theorem hearSender_fault (x : StationId) : (hearSender x s).fault = s.fault := rfl
@[simp] theorem hearSender_counters (x : StationId) : (hearSender x s).counters = s.counters := rfl
@[simp] theorem hearSender_life (x : StationId) : (hearSender x s).life = s.life := rfl
@[simp] theorem hearSender_exclusionReason (x : StationId) : (hearSender x s).exclusionReason = s.exclusionReason := rfl
@[simp] theorem hearSender_haltReason (x : StationId) : (hearSender x s).haltReason = s.haltReason := rfl
@[simp] theorem hearSender_config (x : StationId) : (hearSender x s).config = s.config := rfl
@[simp] theorem hearSender_foundingCount (x : StationId) : (hearSender x s).foundingCount = s.foundingCount := rfl
@[simp] theorem hearSender_rejoin (x : StationId) : (hearSender x s).rejoin = s.rejoin := rfl
@[simp] theorem hearSender_pendingLeave (x : StationId) : (hearSender x s).pendingLeave = s.pendingLeave := rfl
@[simp] theorem hearSender_pendingStop (x : StationId) : (hearSender x s).pendingStop = s.pendingStop := rfl
@[simp] theorem hearSender_straps (x : StationId) : (hearSender x s).straps = s.straps := rfl
@[simp] theorem hearSender_strapPins (x : StationId) : (hearSender x s).strapPins = s.strapPins := rfl
@[simp] theorem hearSender_freeCount (x : StationId) : (hearSender x s).freeCount = s.freeCount := rfl
@[simp] theorem hearSender_pending (x : StationId) : (hearSender x s).pending = s.pending := rfl

@[simp] theorem pendAbort_port (e : Ending) : (pendAbort e s).port = s.port := rfl
@[simp] theorem pendAbort_tickets (e : Ending) : (pendAbort e s).tickets = s.tickets := rfl
@[simp] theorem pendAbort_hostQueue (e : Ending) : (pendAbort e s).hostQueue = s.hostQueue := rfl
@[simp] theorem pendAbort_hostRetry (e : Ending) : (pendAbort e s).hostRetry = s.hostRetry := rfl
@[simp] theorem pendAbort_busyWait (e : Ending) : (pendAbort e s).busyWait = s.busyWait := rfl
@[simp] theorem pendAbort_round (e : Ending) : (pendAbort e s).round = s.round := rfl
@[simp] theorem pendAbort_copyRetry (e : Ending) : (pendAbort e s).copyRetry = s.copyRetry := rfl
@[simp] theorem pendAbort_replica (e : Ending) : (pendAbort e s).replica = s.replica := rfl
@[simp] theorem pendAbort_ecc (e : Ending) : (pendAbort e s).ecc = s.ecc := rfl
@[simp] theorem pendAbort_lateDamage (e : Ending) : (pendAbort e s).lateDamage = s.lateDamage := rfl
@[simp] theorem pendAbort_monitor (e : Ending) : (pendAbort e s).monitor = s.monitor := rfl
@[simp] theorem pendAbort_listening (e : Ending) : (pendAbort e s).listening = s.listening := rfl
@[simp] theorem pendAbort_declines (e : Ending) : (pendAbort e s).declines = s.declines := rfl
@[simp] theorem pendAbort_copy (e : Ending) : (pendAbort e s).copy = s.copy := rfl
@[simp] theorem pendAbort_leases (e : Ending) : (pendAbort e s).leases = s.leases := rfl
@[simp] theorem pendAbort_expireSet (e : Ending) : (pendAbort e s).expireSet = s.expireSet := rfl
@[simp] theorem pendAbort_inbound (e : Ending) : (pendAbort e s).inbound = s.inbound := rfl
@[simp] theorem pendAbort_records (e : Ending) : (pendAbort e s).records = s.records := rfl
@[simp] theorem pendAbort_fault (e : Ending) : (pendAbort e s).fault = s.fault := rfl
@[simp] theorem pendAbort_counters (e : Ending) : (pendAbort e s).counters = s.counters := rfl
@[simp] theorem pendAbort_life (e : Ending) : (pendAbort e s).life = s.life := rfl
@[simp] theorem pendAbort_exclusionReason (e : Ending) : (pendAbort e s).exclusionReason = s.exclusionReason := rfl
@[simp] theorem pendAbort_haltReason (e : Ending) : (pendAbort e s).haltReason = s.haltReason := rfl
@[simp] theorem pendAbort_config (e : Ending) : (pendAbort e s).config = s.config := rfl
@[simp] theorem pendAbort_foundingCount (e : Ending) : (pendAbort e s).foundingCount = s.foundingCount := rfl
@[simp] theorem pendAbort_rejoin (e : Ending) : (pendAbort e s).rejoin = s.rejoin := rfl
@[simp] theorem pendAbort_pendingLeave (e : Ending) : (pendAbort e s).pendingLeave = s.pendingLeave := rfl
@[simp] theorem pendAbort_pendingStop (e : Ending) : (pendAbort e s).pendingStop = s.pendingStop := rfl
@[simp] theorem pendAbort_straps (e : Ending) : (pendAbort e s).straps = s.straps := rfl
@[simp] theorem pendAbort_strapPins (e : Ending) : (pendAbort e s).strapPins = s.strapPins := rfl
@[simp] theorem pendAbort_freeCount (e : Ending) : (pendAbort e s).freeCount = s.freeCount := rfl
@[simp] theorem pendAbort_pending (e : Ending) : (pendAbort e s).pending = s.pending := rfl

@[simp] theorem track_port (f : Frame) : (track f s).port = s.port := rfl
@[simp] theorem track_tickets (f : Frame) : (track f s).tickets = s.tickets := rfl
@[simp] theorem track_hostQueue (f : Frame) : (track f s).hostQueue = s.hostQueue := rfl
@[simp] theorem track_hostRetry (f : Frame) : (track f s).hostRetry = s.hostRetry := rfl
@[simp] theorem track_busyWait (f : Frame) : (track f s).busyWait = s.busyWait := rfl
@[simp] theorem track_round (f : Frame) : (track f s).round = s.round := rfl
@[simp] theorem track_copyRetry (f : Frame) : (track f s).copyRetry = s.copyRetry := rfl
@[simp] theorem track_replica (f : Frame) : (track f s).replica = s.replica := rfl
@[simp] theorem track_ecc (f : Frame) : (track f s).ecc = s.ecc := rfl
@[simp] theorem track_lateDamage (f : Frame) : (track f s).lateDamage = s.lateDamage := rfl
@[simp] theorem track_monitor (f : Frame) : (track f s).monitor = s.monitor := rfl
@[simp] theorem track_listening (f : Frame) : (track f s).listening = s.listening := rfl
@[simp] theorem track_declines (f : Frame) : (track f s).declines = s.declines := rfl
@[simp] theorem track_copy (f : Frame) : (track f s).copy = s.copy := rfl
@[simp] theorem track_leases (f : Frame) : (track f s).leases = s.leases := rfl
@[simp] theorem track_expireSet (f : Frame) : (track f s).expireSet = s.expireSet := rfl
@[simp] theorem track_inbound (f : Frame) : (track f s).inbound = s.inbound := rfl
@[simp] theorem track_records (f : Frame) : (track f s).records = s.records := rfl
@[simp] theorem track_fault (f : Frame) : (track f s).fault = s.fault := rfl
@[simp] theorem track_counters (f : Frame) : (track f s).counters = s.counters := rfl
@[simp] theorem track_life (f : Frame) : (track f s).life = s.life := rfl
@[simp] theorem track_exclusionReason (f : Frame) : (track f s).exclusionReason = s.exclusionReason := rfl
@[simp] theorem track_haltReason (f : Frame) : (track f s).haltReason = s.haltReason := rfl
@[simp] theorem track_config (f : Frame) : (track f s).config = s.config := rfl
@[simp] theorem track_foundingCount (f : Frame) : (track f s).foundingCount = s.foundingCount := rfl
@[simp] theorem track_rejoin (f : Frame) : (track f s).rejoin = s.rejoin := rfl
@[simp] theorem track_pendingLeave (f : Frame) : (track f s).pendingLeave = s.pendingLeave := rfl
@[simp] theorem track_pendingStop (f : Frame) : (track f s).pendingStop = s.pendingStop := rfl
@[simp] theorem track_straps (f : Frame) : (track f s).straps = s.straps := rfl
@[simp] theorem track_strapPins (f : Frame) : (track f s).strapPins = s.strapPins := rfl
@[simp] theorem track_freeCount (f : Frame) : (track f s).freeCount = s.freeCount := rfl
@[simp] theorem track_pending (f : Frame) : (track f s).pending = s.pending := rfl

@[simp] theorem countCatchUp_port : (countCatchUp s).port = s.port := rfl
@[simp] theorem countCatchUp_tickets : (countCatchUp s).tickets = s.tickets := rfl
@[simp] theorem countCatchUp_hostQueue : (countCatchUp s).hostQueue = s.hostQueue := rfl
@[simp] theorem countCatchUp_hostRetry : (countCatchUp s).hostRetry = s.hostRetry := rfl
@[simp] theorem countCatchUp_busyWait : (countCatchUp s).busyWait = s.busyWait := rfl
@[simp] theorem countCatchUp_round : (countCatchUp s).round = s.round := rfl
@[simp] theorem countCatchUp_copyRetry : (countCatchUp s).copyRetry = s.copyRetry := rfl
@[simp] theorem countCatchUp_replica : (countCatchUp s).replica = s.replica := rfl
@[simp] theorem countCatchUp_ecc : (countCatchUp s).ecc = s.ecc := rfl
@[simp] theorem countCatchUp_lateDamage : (countCatchUp s).lateDamage = s.lateDamage := rfl
@[simp] theorem countCatchUp_monitor : (countCatchUp s).monitor = s.monitor := rfl
@[simp] theorem countCatchUp_listening : (countCatchUp s).listening = s.listening := rfl
@[simp] theorem countCatchUp_declines : (countCatchUp s).declines = s.declines := rfl
@[simp] theorem countCatchUp_copy : (countCatchUp s).copy = s.copy := rfl
@[simp] theorem countCatchUp_leases : (countCatchUp s).leases = s.leases := rfl
@[simp] theorem countCatchUp_expireSet : (countCatchUp s).expireSet = s.expireSet := rfl
@[simp] theorem countCatchUp_inbound : (countCatchUp s).inbound = s.inbound := rfl
@[simp] theorem countCatchUp_records : (countCatchUp s).records = s.records := rfl
@[simp] theorem countCatchUp_fault : (countCatchUp s).fault = s.fault := rfl
@[simp] theorem countCatchUp_counters : (countCatchUp s).counters = s.counters := rfl
@[simp] theorem countCatchUp_life : (countCatchUp s).life = s.life := rfl
@[simp] theorem countCatchUp_exclusionReason : (countCatchUp s).exclusionReason = s.exclusionReason := rfl
@[simp] theorem countCatchUp_haltReason : (countCatchUp s).haltReason = s.haltReason := rfl
@[simp] theorem countCatchUp_config : (countCatchUp s).config = s.config := rfl
@[simp] theorem countCatchUp_foundingCount : (countCatchUp s).foundingCount = s.foundingCount := rfl
@[simp] theorem countCatchUp_rejoin : (countCatchUp s).rejoin = s.rejoin := rfl
@[simp] theorem countCatchUp_pendingLeave : (countCatchUp s).pendingLeave = s.pendingLeave := rfl
@[simp] theorem countCatchUp_pendingStop : (countCatchUp s).pendingStop = s.pendingStop := rfl
@[simp] theorem countCatchUp_straps : (countCatchUp s).straps = s.straps := rfl
@[simp] theorem countCatchUp_strapPins : (countCatchUp s).strapPins = s.strapPins := rfl
@[simp] theorem countCatchUp_freeCount : (countCatchUp s).freeCount = s.freeCount := rfl
@[simp] theorem countCatchUp_pending : (countCatchUp s).pending = s.pending := rfl

@[simp] theorem configure_port (c : StartConfig) : (configure c s).port = s.port := rfl
@[simp] theorem configure_tickets (c : StartConfig) : (configure c s).tickets = s.tickets := rfl
@[simp] theorem configure_hostQueue (c : StartConfig) : (configure c s).hostQueue = s.hostQueue := rfl
@[simp] theorem configure_hostRetry (c : StartConfig) : (configure c s).hostRetry = s.hostRetry := rfl
@[simp] theorem configure_busyWait (c : StartConfig) : (configure c s).busyWait = s.busyWait := rfl
@[simp] theorem configure_copyRetry (c : StartConfig) : (configure c s).copyRetry = s.copyRetry := rfl
@[simp] theorem configure_replica (c : StartConfig) : (configure c s).replica = s.replica := rfl
@[simp] theorem configure_ecc (c : StartConfig) : (configure c s).ecc = s.ecc := rfl
@[simp] theorem configure_lateDamage (c : StartConfig) : (configure c s).lateDamage = s.lateDamage := rfl
@[simp] theorem configure_monitor (c : StartConfig) : (configure c s).monitor = s.monitor := rfl
@[simp] theorem configure_listening (c : StartConfig) : (configure c s).listening = s.listening := rfl
@[simp] theorem configure_join (c : StartConfig) : (configure c s).join = s.join := rfl
@[simp] theorem configure_declines (c : StartConfig) : (configure c s).declines = s.declines := rfl
@[simp] theorem configure_copy (c : StartConfig) : (configure c s).copy = s.copy := rfl
@[simp] theorem configure_leases (c : StartConfig) : (configure c s).leases = s.leases := rfl
@[simp] theorem configure_expireSet (c : StartConfig) : (configure c s).expireSet = s.expireSet := rfl
@[simp] theorem configure_inbound (c : StartConfig) : (configure c s).inbound = s.inbound := rfl
@[simp] theorem configure_records (c : StartConfig) : (configure c s).records = s.records := rfl
@[simp] theorem configure_fault (c : StartConfig) : (configure c s).fault = s.fault := rfl
@[simp] theorem configure_counters (c : StartConfig) : (configure c s).counters = s.counters := rfl
@[simp] theorem configure_life (c : StartConfig) : (configure c s).life = s.life := rfl
@[simp] theorem configure_exclusionReason (c : StartConfig) : (configure c s).exclusionReason = s.exclusionReason := rfl
@[simp] theorem configure_haltReason (c : StartConfig) : (configure c s).haltReason = s.haltReason := rfl
@[simp] theorem configure_config (c : StartConfig) : (configure c s).config = some c := rfl
@[simp] theorem configure_foundingCount (c : StartConfig) : (configure c s).foundingCount = s.foundingCount := rfl
@[simp] theorem configure_rejoin (c : StartConfig) : (configure c s).rejoin = none := rfl
@[simp] theorem configure_pendingLeave (c : StartConfig) : (configure c s).pendingLeave = s.pendingLeave := rfl
@[simp] theorem configure_pendingStop (c : StartConfig) : (configure c s).pendingStop = s.pendingStop := rfl
@[simp] theorem configure_straps (c : StartConfig) : (configure c s).straps = s.straps := rfl
@[simp] theorem configure_strapPins (c : StartConfig) : (configure c s).strapPins = s.strapPins := rfl
@[simp] theorem configure_freeCount (c : StartConfig) : (configure c s).freeCount = s.freeCount := rfl
@[simp] theorem configure_pending (c : StartConfig) : (configure c s).pending = s.pending := rfl

@[simp] theorem writeInstalled_port : (writeInstalled s).port = s.port := rfl
@[simp] theorem writeInstalled_tickets : (writeInstalled s).tickets = s.tickets := rfl
@[simp] theorem writeInstalled_hostQueue : (writeInstalled s).hostQueue = s.hostQueue := rfl
@[simp] theorem writeInstalled_hostRetry : (writeInstalled s).hostRetry = s.hostRetry := rfl
@[simp] theorem writeInstalled_busyWait : (writeInstalled s).busyWait = s.busyWait := rfl
@[simp] theorem writeInstalled_round : (writeInstalled s).round = s.round := rfl
@[simp] theorem writeInstalled_copyRetry : (writeInstalled s).copyRetry = s.copyRetry := rfl
@[simp] theorem writeInstalled_replica : (writeInstalled s).replica = s.replica := rfl
@[simp] theorem writeInstalled_ecc : (writeInstalled s).ecc = s.lateDamage := rfl
@[simp] theorem writeInstalled_lateDamage : (writeInstalled s).lateDamage = .sound := rfl
@[simp] theorem writeInstalled_monitor : (writeInstalled s).monitor = s.monitor := rfl
@[simp] theorem writeInstalled_listening : (writeInstalled s).listening = s.listening := rfl
@[simp] theorem writeInstalled_join : (writeInstalled s).join = s.join := rfl
@[simp] theorem writeInstalled_declines : (writeInstalled s).declines = s.declines := rfl
@[simp] theorem writeInstalled_copy : (writeInstalled s).copy = s.copy := rfl
@[simp] theorem writeInstalled_leases : (writeInstalled s).leases = s.leases := rfl
@[simp] theorem writeInstalled_expireSet : (writeInstalled s).expireSet = s.expireSet := rfl
@[simp] theorem writeInstalled_inbound : (writeInstalled s).inbound = s.inbound := rfl
@[simp] theorem writeInstalled_records : (writeInstalled s).records = s.records := rfl
@[simp] theorem writeInstalled_fault : (writeInstalled s).fault = s.fault := rfl
@[simp] theorem writeInstalled_counters : (writeInstalled s).counters = s.counters := rfl
@[simp] theorem writeInstalled_life : (writeInstalled s).life = s.life := rfl
@[simp] theorem writeInstalled_exclusionReason : (writeInstalled s).exclusionReason = s.exclusionReason := rfl
@[simp] theorem writeInstalled_haltReason : (writeInstalled s).haltReason = s.haltReason := rfl
@[simp] theorem writeInstalled_config : (writeInstalled s).config = s.config := rfl
@[simp] theorem writeInstalled_foundingCount : (writeInstalled s).foundingCount = s.foundingCount := rfl
@[simp] theorem writeInstalled_rejoin : (writeInstalled s).rejoin = s.rejoin := rfl
@[simp] theorem writeInstalled_pendingLeave : (writeInstalled s).pendingLeave = s.pendingLeave := rfl
@[simp] theorem writeInstalled_pendingStop : (writeInstalled s).pendingStop = s.pendingStop := rfl
@[simp] theorem writeInstalled_straps : (writeInstalled s).straps = s.straps := rfl
@[simp] theorem writeInstalled_strapPins : (writeInstalled s).strapPins = s.strapPins := rfl
@[simp] theorem writeInstalled_freeCount : (writeInstalled s).freeCount = s.freeCount := rfl
@[simp] theorem writeInstalled_pending : (writeInstalled s).pending = s.pending := rfl

end Sys2Proof.Machine
end

