-- ==== Sys2Proof/Laws/Ops.lean ====
section
/-!
SUPPORT. What the shared operations of Machine/Ops.lean and Machine/Storage.lean can do, said once each.
-/

namespace Sys2Proof.Machine

/-! ### Tables and sets -/

theorem getElem_put {α : Type} {n : Nat} (v : Vector α n) (i j : Fin n) (x : α) :
    (put v i x)[j] = if i = j then x else v[j] := by
  simp only [put, Fin.getElem_fin, Vector.getElem_set, Fin.ext_iff]

/-- The same in the form simp gives an index. -/
@[simp] theorem getElem_put_val {α : Type} {n : Nat} (v : Vector α n) (i j : Fin n) (x : α) :
    (put v i x)[j.val] = if i = j then x else v[j.val] :=
  getElem_put v i j x

theorem getElem_put_same {α : Type} {n : Nat} (v : Vector α n) (i : Fin n) (x : α) : (put v i x)[i] = x := by
  rw [getElem_put, if_pos rfl]

theorem getElem_put_ne {α : Type} {n : Nat} (v : Vector α n) {i j : Fin n} (x : α) (h : i ≠ j) :
    (put v i x)[j] = v[j] := by
  rw [getElem_put, if_neg h]

theorem has_addTo {n : Nat} (v : Vector Bool n) (i j : Fin n) : has (addTo v i) j = (decide (i = j) || has v j) := by
  unfold has addTo
  rw [getElem_put]
  split <;> simp_all

theorem has_dropFrom {n : Nat} (v : Vector Bool n) (i j : Fin n) :
    has (dropFrom v i) j = (!decide (i = j) && has v j) := by
  unfold has dropFrom
  rw [getElem_put]
  split <;> simp_all

theorem isEmptySet_iff {n : Nat} (v : Vector Bool n) : isEmptySet v = true ↔ ∀ i, has v i = false := by
  simp [isEmptySet]

@[simp] theorem has_noIds (i : StationId) : has noIds i = false := by
  unfold has noIds
  simp

@[simp] theorem has_noLocks (k : LockId) : has noLocks k = false := by
  unfold has noLocks
  simp

/-! ### Counters and storage (R181, R185) -/

@[simp] theorem saturate_zero (h : Half) : saturate h 0 = h := by
  apply BitVec.eq_of_toNat_eq
  have := h.isLt
  simp only [saturate, Nat.add_zero, BitVec.toNat_ofNat]
  omega

/-- A counter never passes 65535, and short of it counts every one. -/
theorem saturate_toNat (h : Half) (n : Nat) : (saturate h n).toNat = min 65535 (h.toNat + n) := by
  simp only [saturate, BitVec.toNat_ofNat]
  omega

@[simp] theorem countCorrected_zero (s : State) : countCorrected 0 s = s := by
  simp [countCorrected]

/-- Reads of undamaged words change nothing and can all be read (R181). -/
theorem readWords_allGood {words : List StoreWord} {c : StoreCondition} (h : AllGood words c) :
    readWords words c = { ecc := c, corrected := 0, readable := true } := by
  induction words with
  | nil => rfl
  | cons w rest ih =>
    have hw : conditionOf w c = .good := h w (by simp)
    simp only [readWords, hw]
    exact ih fun x hx => h x (by simp [hx])

/-- Every word of sound storage is good. -/
@[simp] theorem conditionOf_sound (w : StoreWord) : conditionOf w .sound = .good := by
  cases w <;> simp [conditionOf, StoreCondition.sound]

theorem afterReads_allGood {words : List StoreWord} {s : State} (h : AllGood words s.ecc) : afterReads words s = s := by
  simp [afterReads, readWords_allGood h]

theorem readable_allGood {words : List StoreWord} {s : State} (h : AllGood words s.ecc) : readable words s = true := by
  simp [readable, readWords_allGood h]

/-- A word written back is good, and no other word changes (R181). -/
theorem conditionOf_writeBack (v w : StoreWord) (c : StoreCondition) :
    conditionOf v (writeBack w c) = if v = w then .good else conditionOf v c := by
  cases v <;> cases w <;> simp only [conditionOf, writeBack, getElem_put, StoreWord.lock.injEq, StoreWord.queue.injEq,
    reduceCtorEq, if_false, if_true] <;> simp only [eq_comm]

/-- Reads of which one word has a correctable error and the others none: it is written back and counted once (R181). -/
theorem readWords_correctable {words : List StoreWord} {c : StoreCondition} {w : StoreWord} (hw : w ∈ words)
    (h : conditionOf w c = .correctable) (hg : ∀ v ∈ words, v ≠ w → conditionOf v c = .good) :
    readWords words c = { ecc := writeBack w c, corrected := 1, readable := true } := by
  induction words with
  | nil => cases hw
  | cons v rest ih =>
    by_cases hv : v = w
    · subst hv
      have hr : AllGood rest (writeBack v c) := fun x hx => by
        rw [conditionOf_writeBack]
        split
        · rfl
        · next hne => exact hg x (List.mem_cons_of_mem _ hx) hne
      simp only [readWords, h, readWords_allGood hr]
    · have hm : w ∈ rest := by simpa [Ne.symm hv] using hw
      simp only [readWords, hg v (by simp) hv]
      exact ih hm fun x hx => hg x (List.mem_cons_of_mem _ hx)

/-- Reads of which some word is uncorrectable and none correctable leave the storage and the counter as they are (R182). -/
theorem readWords_uncorrectable {words : List StoreWord} {c : StoreCondition}
    (h : ∃ w ∈ words, conditionOf w c = .uncorrectable) (hc : ∀ w ∈ words, conditionOf w c ≠ .correctable) :
    readWords words c = { ecc := c, corrected := 0, readable := false } := by
  induction words with
  | nil => simp at h
  | cons v rest ih =>
    cases hv : conditionOf v c with
    | uncorrectable => simp only [readWords, hv]
    | correctable => exact absurd hv (hc v (by simp))
    | good =>
      obtain ⟨w, hw, hu⟩ := h
      have hm : w ∈ rest := by
        rcases List.mem_cons.1 hw with rfl | hm
        · rw [hv] at hu; cases hu
        · exact hm
      simp only [readWords, hv]
      exact ih ⟨w, hm, hu⟩ fun x hx => hc x (List.mem_cons_of_mem _ hx)

/-- A read that meets an uncorrectable word first leaves the storage and the counter as they are (R182). -/
theorem readWords_uncorrectable_first {w : StoreWord} {rest : List StoreWord} {c : StoreCondition}
    (h : conditionOf w c = .uncorrectable) :
    readWords (w :: rest) c = { ecc := c, corrected := 0, readable := false } := by
  simp [readWords, h]

/-! ### The first-fault rule (R184) -/

theorem recordFault_fault (kind : FaultKind) (sequence : Half) (sender : Option StationId) (s : State) :
    (recordFault kind sequence sender s).fault =
      some (s.fault.getD { kind := kind, sequence := sequence, sender := sender }) := by
  unfold recordFault
  split <;> simp_all

theorem recordFault_eq (kind : FaultKind) (sequence : Half) (sender : Option StationId) (s : State) :
    recordFault kind sequence sender s =
      { s with fault := some (s.fault.getD { kind := kind, sequence := sequence, sender := sender }) } := by
  unfold recordFault
  split
  · next h => simp [h]
  · next x h => cases s; simp_all

/-! ### Tickets and records (R166, R172, R173) -/

theorem placeTicket_of_used {t : TicketId} {p : Place} {s : State} {k : Ticket} (h : s.tickets[t] = some k) :
    placeTicket t p s = { s with tickets := put s.tickets t (some { k with place := p }) } := by
  simp [placeTicket, h]

theorem enqueue_ticketed {r : Record} {q : List Record} {t : TicketId} (h : ticketOfRecord r = some t) :
    enqueue r q = q ++ [r] := by
  cases r <;> simp_all [ticketOfRecord, enqueue]

/-- A ticketed record is appended, and its ticket, in use, is RECORDED (R166). -/
theorem makeRecord_ticketed {r : Record} {s : State} {t : TicketId} {k : Ticket} (h : ticketOfRecord r = some t)
    (hk : s.tickets[t] = some k) :
    makeRecord r s =
      { s with tickets := put s.tickets t (some { k with place := .recorded }), records := s.records ++ [r] } := by
  simp [makeRecord, h, addRecord, placeTicket_of_used hk, enqueue_ticketed h]

/-! ### Exclusion, halt and entry to LISTENING (R128 to R131, R136, R178, R97) -/

theorem exclude_records (r : ExclusionReason) (s : State) :
    (exclude r s).records = .stateChanged (.excluded r) :: (if s.inbound.isEmpty then [] else [.noteArrived]) := rfl

theorem exclude_pointer (r : ExclusionReason) (s : State) : (exclude r s).round.pointer = s.round.pointer := rfl

theorem enterHalted_records (r : StopReason) (p : Option StopReason) (s : State) :
    (enterHalted r p s).records = .stateChanged (.halted r) :: (if s.inbound.isEmpty then [] else [.noteArrived]) := rfl

theorem enterListening_pointer (b : Bool) (s : State) : (enterListening b s).round.pointer = s.round.pointer := rfl

end Sys2Proof.Machine
end

