-- ==== Sys2Proof/Laws/Close.lean ====
section
/-!
SUPPORT. The close of a verdict window, step by step: what the slots say, and what steps 1 to 4 of R61 do for the usual findings of
the frame part.
-/

namespace Sys2Proof.Machine

variable {s : State} {slots : VerdictSlots} {f : Frame} {halted : Bool}

theorem someSlot_iff (m : VerdictSlot) : someSlot slots m = true ↔ ∃ i : StationId, slots[i] = m := by
  simp only [someSlot, allIds, List.any_eq_true, List.mem_finRange, true_and, beq_iff_eq]

theorem someSlot_eq_false (m : VerdictSlot) : someSlot slots m = false ↔ ∀ i : StationId, slots[i] ≠ m := by
  rw [← Bool.not_eq_true, someSlot_iff]
  simp only [not_exists, ne_eq]

theorem clean_iff : clean slots = true ↔ ∀ i : StationId, slots[i] ≠ .veto := by
  rw [← someSlot_eq_false, clean]
  simp

theorem vetoedByOthers_iff (id : StationId) :
    vetoedByOthers slots id = true ↔ ∃ i : StationId, i ≠ id ∧ slots[i] = .veto := by
  simp only [vetoedByOthers, allIds, List.any_eq_true, List.mem_finRange, true_and, Bool.and_eq_true, beq_iff_eq,
    bne_iff_ne]

theorem vetoedByOthers_eq_false (id : StationId) :
    vetoedByOthers slots id = false ↔ ∀ i : StationId, i ≠ id → slots[i] ≠ .veto := by
  rw [← Bool.not_eq_true, vetoedByOthers_iff]
  simp only [not_exists, not_and, ne_eq]

theorem Unmarked.noVeto (h : Unmarked slots) : someSlot slots .veto = false :=
  (someSlot_eq_false _).2 fun i => by rcases h i with h | h <;> simp [h]

theorem Unmarked.noStale (h : Unmarked slots) : someSlot slots .stale = false :=
  (someSlot_eq_false _).2 fun i => by rcases h i with h | h <;> simp [h]

theorem Unmarked.clean (h : Unmarked slots) : clean slots = true := by
  simp [Machine.clean, h.noVeto]

/-- An unmarked window accepts every frame that is no NOTE (R36). -/
theorem verdictOf_unmarked {body : Body} (h : Unmarked slots) (hb : ∀ d tp p, body ≠ .note d tp p) :
    verdictOf body slots = .accepted := by
  unfold verdictOf
  rw [h.noVeto, h.noStale]
  cases body with
  | note d tp p => exact absurd rfl (hb d tp p)
  | _ => rfl

theorem verdictOf_veto {body : Body} (h : ∃ i : StationId, slots[i] = .veto) : verdictOf body slots = .void .veto := by
  simp [verdictOf, (someSlot_iff _).2 h]

/-- A close at a station that takes part in the round. -/
theorem closeVerdictWindow_eq {r : Reception} (h : AtVerdict r s) :
    closeVerdictWindow slots s = endRound (closeSteps r slots s) := by
  obtain ⟨h1, h2⟩ := h
  simp [closeVerdictWindow, h1, h2]

theorem endRound_eq (s : State) : endRound s = { s with round := roundOver s.round } := rfl

/-- Step 1 for a frame received whole: the sender's ID plus 1 when clean, unchanged when vetoed (R58). -/
theorem closePointer_received (mark : Option VerdictMark) :
    closePointer (receivedIn halted f mark) slots s =
      { s with round := { s.round with pointer := if clean slots then some (f.sender + 1) else s.round.pointer } } := by
  cases h : clean slots <;> simp [closePointer, receivedIn, h]

theorem closeVetoes_of_ne {r : Reception} (h : r.mark ≠ some .veto) : closeVetoes r s = s := by
  simp [closeVetoes, h]

theorem soloVetoesAfter_received (mark : Option VerdictMark) :
    soloVetoesAfter (receivedIn halted f mark) slots s = if halted then s.round.soloVetoes else 0 := by
  cases halted <;> simp [soloVetoesAfter, receivedIn]

/-- A frame received whole never brings the solo-veto count to its limit (R65). -/
theorem soloVetoReached_received (mark : Option VerdictMark) : soloVetoReached (receivedIn halted f mark) slots s = false := by
  unfold soloVetoReached
  rw [soloVetoesAfter_received]
  cases halted
  · simp [Config.soloVetoLimit]
  · by_cases h4 : s.round.soloVetoes = 4 <;> simp [h4, Config.soloVetoLimit]

/-- Step 4 where no limit is reached. -/
theorem closeLimits_received (mark : Option VerdictMark) : closeLimits (receivedIn halted f mark) false s = s := by
  simp [closeLimits, receivedIn]

/-- Step 5 for a frame received whole. -/
theorem closeHandOn_received (mark : Option VerdictMark) (sent : Option InFlight) :
    closeHandOn (receivedIn halted f mark) sent slots s = handOn f sent.isSome (mark == some .taken) slots s := rfl

/-- Step 5 for an own frame whose readback did not match: the frame sent is handed on, not what the line held (R40). -/
theorem closeHandOn_misread (frame : Option Frame) (mark : Option VerdictMark) (reached : Bool) (fl : InFlight) :
    closeHandOn (misreadIn halted frame mark reached) (some fl) slots s = handOn fl.frame true (mark == some .taken) slots s := rfl

theorem closeOwnFrame_of_none (h : s.round.inFlight = none) : closeOwnFrame slots s = s := by
  simp [closeOwnFrame, h]

/-- The close at an observer that received a frame whole and placed no VETO: pointer and solo-veto count, then the handing on. -/
theorem closeSteps_observer {mark : Option VerdictMark} (hi : s.round.inFlight = none) (hm : mark ≠ some .veto) :
    closeSteps (receivedIn halted f mark) slots s =
      handOn f false (mark == some .taken) slots
        { s with round := { s.round with
          pointer := if clean slots then some (f.sender + 1) else s.round.pointer,
          soloVetoes := if halted then s.round.soloVetoes else 0 } } := by
  simp only [closeSteps, closePointer_received]
  rw [closeVetoes_of_ne (r := receivedIn halted f mark) hm]
  simp only [closeSoloVetoes, soloVetoesAfter_received, soloVetoReached_received]
  rw [closeOwnFrame_of_none (by exact hi), closeLimits_received]
  simp [closeHandOn_received, hi]

/-- The state at the handing on, for a frame received whole, in HALTED or not: pointer and solo-veto count are updated, and an own frame is in flight
no more. -/
def afterCounts (halted : Bool) (f : Frame) (slots : VerdictSlots) (s : State) : State :=
  { s with round := { s.round with
      pointer := if clean slots then some (f.sender + 1) else s.round.pointer,
      soloVetoes := if halted then s.round.soloVetoes else 0, inFlight := none } }

/-- The whole close at an observer. -/
theorem closeVerdictWindow_observer {mark : Option VerdictMark} (h : AtVerdict (receivedIn halted f mark) s)
    (hi : s.round.inFlight = none) (hm : mark ≠ some .veto) :
    closeVerdictWindow slots s = endRound (handOn f false (mark == some .taken) slots (afterCounts halted f slots s)) := by
  rw [closeVerdictWindow_eq h, closeSteps_observer hi hm]
  simp [afterCounts, hi]

/-- The whole close at the transmitter of a frame read back whole. -/
theorem closeVerdictWindow_own {fl : InFlight} (h : AtVerdict (receivedIn halted f none) s) (hi : s.round.inFlight = some fl) :
    closeVerdictWindow slots s =
      endRound (handOn f true false slots (staleOnOwn slots (passOutcome fl slots
        (countIfVoid (verdictOf fl.frame.body slots) (afterCounts halted f slots s))))) := by
  rw [closeVerdictWindow_eq h]
  simp only [closeSteps, closePointer_received]
  rw [closeVetoes_of_ne (r := receivedIn halted f none) (by simp [receivedIn])]
  simp only [closeSoloVetoes, soloVetoesAfter_received, soloVetoReached_received]
  rw [closeLimits_received]
  simp [closeHandOn_received, hi, closeOwnFrame, afterCounts]

/-- The whole close at a transmitter that placed no mark on its misread frame: the pointer is unknown, the solo-veto count stays, and
the frame it sent is dealt with as the slots judge it (R40, R58, R62). -/
theorem closeVerdictWindow_misread {frame : Option Frame} {fl : InFlight} (h : AtVerdict (misreadIn halted frame none false) s)
    (hi : s.round.inFlight = some fl) :
    closeVerdictWindow slots s =
      endRound (handOn fl.frame true false slots (staleOnOwn slots (passOutcome fl slots
        (countIfVoid (verdictOf fl.frame.body slots)
          { s with round := { s.round with pointer := none, inFlight := none } })))) := by
  have stays : soloVetoesAfter (misreadIn halted frame none false) slots s = s.round.soloVetoes := by simp [soloVetoesAfter, misreadIn]
  have below : soloVetoReached (misreadIn halted frame none false) slots s = false := by simp [soloVetoReached, stays]
  have limits (t : State) : closeLimits (misreadIn halted frame none false) false t = t := by simp [closeLimits, misreadIn]
  have atStep3 : closeSoloVetoes (misreadIn halted frame none false) slots (closeVetoes (misreadIn halted frame none false)
      (closePointer (misreadIn halted frame none false) slots s)) = { s with round := { s.round with pointer := none } } := by
    simp [closePointer, closeVetoes, closeSoloVetoes, soloVetoesAfter, misreadIn]
  rw [closeVerdictWindow_eq h, closeSteps, below, limits, atStep3, hi, closeHandOn_misread]
  simp [closeOwnFrame, hi]

/-- The whole close at a station that placed VETO on line 2 and transmitted nothing: the veto is counted, the pointer stays if the
round carried a frame, and step 4 acts on the solo-veto count (R58, R61, R65). -/
theorem closeVerdictWindow_unreceived {carried : Bool} (h : AtVerdict (unreceived carried) s) (hi : s.round.inFlight = none)
    (hv : slots[s.straps.id] = .veto) :
    closeVerdictWindow slots s =
      endRound (closeLimits (unreceived carried) (soloVetoReached (unreceived carried) slots s)
        { s with
          counters := { s.counters with vetoesCast := saturate s.counters.vetoesCast 1 },
          round := { s.round with
            pointer := if carried then s.round.pointer else none,
            soloVetoes := soloVetoesAfter (unreceived carried) slots s } }) := by
  have hc : clean slots = false := by
    rw [← Bool.not_eq_true, clean_iff]
    exact fun hh => hh _ hv
  rw [closeVerdictWindow_eq h]
  cases carried <;>
    simp [closeSteps, closePointer, unreceived, hc, closeVetoes, countVetoCast, closeSoloVetoes, closeOwnFrame, hi,
      closeHandOn, frameToHandOn, soloVetoesAfter, soloVetoReached, wonSilently, self] <;> congr

/-! ### Install (R117, R181, R182) -/

/-- The catch-up frames and the ADMIT over undamaged storage: the station is admitted with the replica they give. -/
theorem catchUpFrom_allGood (frames : List Frame) (r : Replica) (h : AllGood allWords s.ecc) :
    catchUpFrom frames r s = admitted (applyAll frames r) s := by
  have hall : ∀ w : StoreWord, w ∈ allWords := by
    intro w
    cases w <;> simp [allWords, allTableWords, allLocks]
  have hg : ∀ words, AllGood words s.ecc := fun words w _ => h w (hall w)
  induction frames generalizing r with
  | nil => rfl
  | cons f rest ih => simp only [catchUpFrom, readable_allGood (hg _), afterReads_allGood (hg _), if_true, applyAll, ih]

/-- Install over words that it can read, no damage coming since: the replica of the copy, the catch-up frames and the ADMIT, over
storage that is sound whatever the words install did not read were. -/
theorem install_sound (f : Frame) (c : RosterCopy) (h : AllGood (installReads s) s.ecc) (hl : s.lateDamage = .sound) :
    install f c s = admitted (applyAll (s.join.catchUp ++ [f]) (installed c s)) { s with ecc := .sound } := by
  simp only [install, readable_allGood h, afterReads_allGood h, if_true, writeInstalled]
  rw [catchUpFrom_allGood _ _ (by simp [hl, AllGood]), hl]

/-- Install over words that it can read, with the damage that comes after its writes: the applications read that damage. -/
theorem install_readable (f : Frame) (c : RosterCopy) (h : AllGood (installReads s) s.ecc) :
    install f c s = catchUpFrom (s.join.catchUp ++ [f]) (installed c s) (writeInstalled s) := by
  simp [install, readable_allGood h, afterReads_allGood h]

/-- Install that meets an uncorrectable word is abandoned with no sender. -/
theorem install_uncorrectable (f : Frame) (c : RosterCopy) (h : readable (installReads s) s = false) :
    install f c s = abandonInstall none (afterReads (installReads s) s) := by simp [install, h]

/-- An uncorrectable word that the next frame's application reads abandons the install with that frame's sender. -/
theorem catchUpFrom_uncorrectable {g : Frame} {rest : List Frame} {r : Replica}
    (h : readable (applicationReads (self s) g r) s = false) :
    catchUpFrom (g :: rest) r s = abandonInstall (some g.sender) (afterReads (applicationReads (self s) g r) s) := by
  simp [catchUpFrom, h]

/-- Catch-up frames and the ADMIT after them are applied in one run. -/
theorem applyAll_append (xs ys : List Frame) (r : Replica) : applyAll (xs ++ ys) r = applyAll ys (applyAll xs r) := by
  induction xs generalizing r with
  | nil => rfl
  | cons f rest ih => exact ih _

end Sys2Proof.Machine
end

