-- ==== Sys2Proof/Laws/LockTable.lean ====
section
/-!
SUPPORT. What the operations on one lock record keep: its parts as propositions, a grant, a holder's removal, an insertion and a
removal from the queue; and what an application leaves of a replica.
-/

namespace Sys2Proof.Machine

variable {r : LockRecord} {e : ClaimEntry} {q : List ClaimEntry} {x : StationId}

/-! ### The parts of a lawful record (R2, R7, R8) -/

theorem highFirst_iff : highFirst q = true ↔ q.Pairwise fun a b => a.cls = .high ∨ b.cls = .standard := by
  induction q with
  | nil => simp [highFirst]
  | cons a rest ih =>
    simp only [highFirst, Bool.and_eq_true, Bool.or_eq_true, beq_iff_eq, List.all_eq_true, ih, List.pairwise_cons]
    refine and_congr_left fun _ => ⟨?_, fun h => ?_⟩
    · rintro (h | h) b hb
      · exact .inl h
      · exact .inr (h b hb)
    · by_cases ha : a.cls = .high
      · exact .inl ha
      · exact .inr fun b hb => (h b hb).resolve_left ha

theorem stationsDistinct_iff : stationsDistinct q = true ↔ q.Pairwise fun a b => a.station ≠ b.station := by
  induction q with
  | nil => simp [stationsDistinct]
  | cons a rest ih =>
    simp only [stationsDistinct, Bool.and_eq_true, List.all_eq_true, ih, List.pairwise_cons, bne_iff_ne, ne_eq]
    exact and_congr_left fun _ => forall₂_congr fun b _ => ⟨fun h h' => h h'.symm, fun h h' => h h'.symm⟩

/-- A lawful record, part by part. -/
theorem lawfulLock_iff :
    lawfulLock r = true ↔
      stateAgrees r = true ∧ (r.queue.Pairwise fun a b => a.cls = .high ∨ b.cls = .standard) ∧
        (r.queue.Pairwise fun a b => a.station ≠ b.station) ∧ ∀ a ∈ r.queue, has r.holders a.station = false := by
  simp only [lawfulLock, Bool.and_eq_true, highFirst_iff, stationsDistinct_iff, List.all_eq_true, Bool.not_eq_true', and_assoc]

theorem filter_has_eq_nil {v : IdSet} (h : ∀ i, has v i = false) : allIds.filter (has v) = [] := by
  simp [h]

/-- A SOLE lock that agrees with its holder set has a holder (R2). -/
theorem sole_not_empty (hs : r.state = .sole) (h : stateAgrees r = true) : isEmptySet r.holders = false := by
  rw [← Bool.not_eq_true, isEmptySet_iff]
  intro hh
  simp [stateAgrees, hs, filter_has_eq_nil hh] at h

/-- The state of a lock that agrees with its holder set is FREE exactly when nobody holds it (R2). -/
theorem free_iff_empty (h : stateAgrees r = true) : r.state = .free ↔ isEmptySet r.holders = true := by
  cases hs : r.state with
  | free => simp_all [stateAgrees]
  | sole => simp [sole_not_empty hs h]
  | shared => simp_all [stateAgrees]

/-- Nothing can be granted on a SOLE lock (R17). -/
theorem not_grantable_of_sole (hs : r.state = .sole) (h : stateAgrees r = true) (m : Mode) : grantable r m = false := by
  cases m with
  | sole => exact sole_not_empty hs h
  | shared => simp [grantable, hs]

/-! ### Grants and removals of holders -/

theorem has_grant (m : Mode) (y : StationId) : has (grant x m r).holders y = (decide (x = y) || has r.holders y) :=
  has_addTo r.holders x y

/-- The station that holds a set of one. -/
theorem filter_addTo_of_empty {v : IdSet} (h : ∀ i, has v i = false) : allIds.filter (has (addTo v x)) = [x] := by
  have h1 : (has (addTo v x)) = fun y => decide (x = y) := by
    funext y
    rw [has_addTo, h y, Bool.or_false]
  rw [h1]
  have : allIds.filter (fun y => decide (x = y)) = allIds.filter (· == x) := by
    congr 1
    funext y
    rw [beq_eq_decide]
    exact decide_eq_decide.2 eq_comm
  rw [this, List.filter_beq]
  have hc : allIds.count x = 1 := List.count_eq_one_of_mem (List.nodup_finRange 16) (List.mem_finRange x)
  rw [hc]
  rfl

/-- A grant the rules allow keeps state and holder set in agreement (R2, R14, R17). -/
theorem grant_agrees {m : Mode} (hg : grantable r m = true) : stateAgrees (grant x m r) = true := by
  cases m with
  | sole =>
    have he := (isEmptySet_iff r.holders).1 hg
    simp [stateAgrees, grant, lockStateOf, filter_addTo_of_empty he]
  | shared =>
    simp only [stateAgrees, grant, lockStateOf, Bool.not_eq_true']
    rw [← Bool.not_eq_true, isEmptySet_iff]
    intro hh
    have := hh x
    simp [has_addTo] at this

theorem removeHolder_holders (y : StationId) :
    has (removeHolder x r).holders y = (has r.holders y && !decide (x = y)) := by
  unfold removeHolder
  split
  · rw [has_dropFrom, Bool.and_comm]
  · next h =>
    by_cases hxy : x = y
    · subst hxy
      simpa using h
    · simp [hxy]

@[simp] theorem removeHolder_queue : (removeHolder x r).queue = r.queue := by
  unfold removeHolder
  split <;> rfl

@[simp] theorem removeHolder_generation : (removeHolder x r).generation = r.generation := by
  unfold removeHolder
  split <;> rfl

theorem removeHolder_of_not_holder (h : has r.holders x = false) : removeHolder x r = r := by
  simp [removeHolder, h]

/-! ### The queue -/

/-- A HIGH entry goes directly after the last HIGH entry (R7). -/
theorem insertHigh_spec (h : highFirst q = true) :
    ∃ before after, q = before ++ after ∧ insertHigh e q = before ++ e :: after ∧ (∀ a ∈ before, a.cls = .high) ∧
      ∀ a ∈ after, a.cls = .standard := by
  induction q with
  | nil => exact ⟨[], [], rfl, rfl, by simp, by simp⟩
  | cons a rest ih =>
    have hp := List.pairwise_cons.1 (highFirst_iff.1 h)
    have hr : highFirst rest = true := highFirst_iff.2 hp.2
    unfold insertHigh
    split
    · next hany =>
      have ha : a.cls = .high := by
        simp only [List.any_cons, Bool.or_eq_true, beq_iff_eq, List.any_eq_true] at hany
        rcases hany with h1 | ⟨b, hb, h1⟩
        · exact h1
        · exact (hp.1 b hb).resolve_right (by simp [h1])
      obtain ⟨b, c, h1, h2, h3, h4⟩ := ih hr
      exact ⟨a :: b, c, by rw [h1, List.cons_append], by rw [h2, List.cons_append], by simpa [ha] using h3, h4⟩
    · next hany =>
      refine ⟨[], a :: rest, rfl, rfl, by simp, fun b hb => ?_⟩
      simp only [List.any_eq_true, not_exists, not_and, beq_iff_eq] at hany
      have := hany b hb
      cases hc : b.cls <;> simp_all

/-- The entries after an insertion are the new one and the old ones. -/
theorem mem_insertEntry (a : ClaimEntry) : a ∈ insertEntry e q ↔ a = e ∨ a ∈ q := by
  unfold insertEntry
  split
  · induction q with
    | nil => simp [insertHigh]
    | cons b rest ih =>
      unfold insertHigh
      split
      · simp [ih, or_left_comm]
      · simp
  · simp [or_comm]

theorem length_insertEntry : (insertEntry e q).length = q.length + 1 := by
  unfold insertEntry
  split
  · induction q with
    | nil => rfl
    | cons b rest ih =>
      unfold insertHigh
      split
      · simp [ih]
      · rfl
  · simp

/-! ### What an application leaves of a replica -/

/-- The parts of the group record that no frame's own effect touches. -/
def SameGroup (r : Replica) (a : Applied) : Prop :=
  a.replica.tag = r.tag ∧ a.replica.interval = r.interval ∧ a.replica.sequence = r.sequence

theorem SameGroup.nothing (r : Replica) : SameGroup r (Applied.nothing r) := ⟨rfl, rfl, rfl⟩

theorem SameGroup.ofTable (r : Replica) (c : TableChange) : SameGroup r (Applied.ofTable r c) := ⟨rfl, rfl, rfl⟩

theorem SameGroup.setRoster {r : Replica} {a : Applied} (h : SameGroup r a) (id : StationId) (now : RosterState) :
    SameGroup r (setRoster id now a) := h

theorem SameGroup.clearJoin {r : Replica} {a : Applied} (h : SameGroup r a) : SameGroup r (clearJoin a) := h

theorem SameGroup.cancelJoinOf {r : Replica} {a : Applied} (h : SameGroup r a) (m : StationId) :
    SameGroup r (cancelJoinOf m a) := by
  unfold Machine.cancelJoinOf
  split
  · split
    · exact h
    · exact h
  · exact h

theorem SameGroup.remove (y : StationId) (r : Replica) : SameGroup r (remove y r) := by
  unfold Machine.remove
  split
  · exact ((SameGroup.ofTable r _).setRoster y .absent).cancelJoinOf y
  · exact (SameGroup.nothing r).setRoster y .absent
  · exact .nothing r

theorem SameGroup.decideEntry {r : Replica} {a : Applied} (h : SameGroup r a) (j : StationId) (i : Interval) :
    SameGroup r (decideEntry j i a) := by
  unfold Machine.decideEntry
  split
  · exact h
  · split
    · exact h
    · split <;> exact h

theorem SameGroup.applyAdmit (j : StationId) (r : Replica) : SameGroup r (applyAdmit j r) := by
  unfold Machine.applyAdmit
  split
  · exact (SameGroup.nothing r).setRoster j .full
  · exact .nothing r

theorem SameGroup.ifFull {r : Replica} {a : Applied} (h : SameGroup r a) (y : StationId) : SameGroup r (ifFull y r a) := by
  unfold Machine.ifFull
  split
  · exact h
  · exact .nothing r

/-- A frame's own effect leaves tag, interval and sequence (R48). -/
theorem ownEffect_sameGroup (f : Frame) (r : Replica) : SameGroup r (ownEffect f r) := by
  unfold ownEffect
  split
  · exact (SameGroup.ofTable r _).ifFull _
  · exact (SameGroup.ofTable r _).ifFull _
  · exact (SameGroup.ofTable r _).ifFull _
  · exact (SameGroup.ofTable r _).ifFull _
  · exact (SameGroup.remove _ r).ifFull _
  · exact .remove _ r
  · exact (SameGroup.remove f.sender r).decideEntry f.sender _
  · exact .applyAdmit _ r
  all_goals exact .nothing r

/-- An application advances the sequence by one (R38, R41). -/
theorem applyFrame_sequence (f : Frame) (r : Replica) : (applyFrame f r).replica.sequence = r.sequence + 1 := by
  have h := (ownEffect_sameGroup f r).2.2
  simp [applyFrame, h]

theorem applyFrame_tag (f : Frame) (r : Replica) : (applyFrame f r).replica.tag = r.tag := (ownEffect_sameGroup f r).1

theorem applyFrame_interval (f : Frame) (r : Replica) : (applyFrame f r).replica.interval = r.interval :=
  (ownEffect_sameGroup f r).2.1

end Sys2Proof.Machine
end

