-- ==== Sys2Proof/Laws/Told.lean ====
section
/-!
SUPPORT. What an application tells the blocks of a station, said once for each operation: which fields of the state can move.
-/

namespace Sys2Proof.Machine

/-- `s` with the host side of `t`: tickets, records, host transmit queue, its counts and its wait. -/
def withHostSide (t s : State) : State :=
  { s with
    tickets := t.tickets, records := t.records, hostQueue := t.hostQueue, hostRetry := t.hostRetry, busyWait := t.busyWait }

/-- `s` with what telling an application may write taken from `t`: the host side, replica, leases, EXPIRE set, roster monitor,
DECLINEs and copy. -/
def withTold (t s : State) : State :=
  { withHostSide t s with
    replica := t.replica, leases := t.leases, expireSet := t.expireSet, monitor := t.monitor, declines := t.declines,
    copy := t.copy, copyRetry := t.copyRetry }

/-- `t` differs from `s` at most in the host side. -/
def HostSide (s t : State) : Prop := t = withHostSide t s

theorem HostSide.eq {s t : State} (h : HostSide s t) : t = withHostSide t s := h

/-- `t` differs from `s` at most in what telling an application may write. -/
def Told (s t : State) : Prop := t = withTold t s

theorem Told.eq {s t : State} (h : Told s t) : t = withTold t s := h

variable {s t u : State}

theorem HostSide.refl (s : State) : HostSide s s := rfl

theorem HostSide.trans (first : HostSide s t) (second : HostSide t u) : HostSide s u := by
  rw [second.eq, first.eq]
  rfl

theorem HostSide.told (h : HostSide s t) : Told s t :=
  h.eq.trans (show withTold t s = withHostSide t s from congrArg (withTold · s) h.eq).symm

theorem HostSide.ecc (h : HostSide s t) : t.ecc = s.ecc := by rw [h.eq]; rfl

theorem HostSide.replica (h : HostSide s t) : t.replica = s.replica := by rw [h.eq]; rfl

theorem Told.refl (s : State) : Told s s := rfl

theorem Told.trans (first : Told s t) (second : Told t u) : Told s u := by
  rw [second.eq, first.eq]
  rfl

theorem Told.ecc (h : Told s t) : t.ecc = s.ecc := by rw [h.eq]; rfl

/-! ### The host side -/

theorem makeRecord_hostSide (r : Record) (s : State) : HostSide s (makeRecord r s) := by
  unfold makeRecord addRecord placeTicket
  split
  · split <;> rfl
  · rfl

theorem placeTicket_hostSide (k : TicketId) (p : Place) (s : State) : HostSide s (placeTicket k p s) := by
  unfold placeTicket
  split
  · rfl
  · rfl

theorem popHead_hostSide (s : State) : HostSide s (popHead s) := rfl

/-- The look up of NOTEs at the head touches the host side alone, where the roster's word is sound (R150). -/
theorem lookupHeads_hostSide (q : List HostFrame) (s : State) (hg : s.ecc.roster = .good) :
    HostSide s (lookupHeads q s) := by
  induction q generalizing s with
  | nil => exact .refl s
  | cons f rest ih =>
    cases f with
    | note d tp p k =>
      have hg' : AllGood [.roster] s.ecc := by simp [AllGood, conditionOf, hg]
      simp only [lookupHeads, readable_allGood hg', afterReads_allGood hg', if_true]
      split
      · exact .refl s
      · have h := (popHead_hostSide s).trans (makeRecord_hostSide (.undelivered k d .gone) _)
        exact h.trans (ih _ (h.ecc ▸ hg))
    | _ => exact .refl s

theorem lookupHead_hostSide (s : State) (hg : s.ecc.roster = .good) : HostSide s (lookupHead s) :=
  lookupHeads_hostSide s.hostQueue s hg

/-- A head that is no NOTE is not looked up. -/
theorem lookupHead_of_not_note (h : ∀ d tp p k, s.hostQueue.head? ≠ some (.note d tp p k)) : lookupHead s = s := by
  unfold lookupHead
  match hq : s.hostQueue with
  | [] => rfl
  | .note d tp p k :: rest => exact absurd (by rw [hq]; rfl) (h d tp p k)
  | .claim .. :: rest => rfl
  | .yield .. :: rest => rfl
  | .recall .. :: rest => rfl

theorem goneRecord_hostSide (f : HostFrame) (s : State) : HostSide s (goneRecord f s) := by
  cases f with
  | note d tp p k => exact makeRecord_hostSide (.undelivered k d .gone) s
  | _ => exact .refl s

theorem goneRecords_hostSide (q : List HostFrame) (s : State) : HostSide s (goneRecords q s) := by
  induction q generalizing s with
  | nil => exact .refl s
  | cons f rest ih => exact (goneRecord_hostSide f s).trans (ih _)

theorem hostSide_queue (hq : List HostFrame) (hr : Retry) (bw : Timer) (s : State) :
    HostSide s { s with hostQueue := hq, hostRetry := hr, busyWait := bw } := rfl

theorem goneRecords_lookup_hostSide (q : List HostFrame) (b : Bool) (s : State) (hg : s.ecc.roster = .good) :
    HostSide s (if b then lookupHead (goneRecords q s) else goneRecords q s) := by
  have h := goneRecords_hostSide q s
  split
  · exact h.trans (lookupHead_hostSide _ (by rw [h.ecc]; exact hg))
  · exact h

/-- The drop of NOTEs to departed stations touches the host side alone, where the roster's word is sound (R151). -/
theorem dropGoneNotes_hostSide (ids : List StationId) (s : State) (hg : s.ecc.roster = .good) :
    HostSide s (dropGoneNotes ids s) :=
  (hostSide_queue _ _ _ s).trans (goneRecords_lookup_hostSide _ _ _ hg)

/-! ### The other blocks -/

theorem makeRecord_told (r : Record) (h : Told s t) : Told s (makeRecord r t) := h.trans (makeRecord_hostSide r t).told

theorem startLease_told (k : TicketId) (s : State) : Told s (startLease k s) := rfl

theorem cancelLease_told (k : TicketId) (s : State) : Told s (cancelLease k s) := rfl

theorem endLease_told (k : LockId) (s : State) : Told s (endLease k s) := rfl

theorem reportLease_told (k : LockId) (s : State) : Told s (reportLease k s) := rfl

theorem tellEvent_told (e : TableEvent) (s : State) : Told s (tellEvent e s) := by
  unfold tellEvent
  split
  · cases e with
    | granted _ k _ _ => exact makeRecord_told _ (startLease_told _ s)
    | refused _ k _ _ => exact makeRecord_told _ (cancelLease_told _ s)
    | waits _ k _ => exact (placeTicket_hostSide _ _ s).told
    | yielded _ k _ => exact makeRecord_told _ (endLease_told _ s)
    | notHeld _ k _ => exact makeRecord_told _ (endLease_told _ s)
    | recalled _ k _ => exact makeRecord_told _ (cancelLease_told _ s)
    | recallDone _ k _ => exact makeRecord_told _ (.refl s)
    | tooLate _ k _ => exact makeRecord_told _ (.refl s)
    | notWaiting _ k _ => exact makeRecord_told _ (.refl s)
    | expired _ k => exact makeRecord_told _ (reportLease_told _ s)
  · exact .refl s

theorem tellEvents_told (es : List TableEvent) (s : State) : Told s (tellEvents es s) := by
  induction es generalizing s with
  | nil => exact .refl s
  | cons e es ih => exact (tellEvent_told e s).trans (ih _)

/-- An update of the roster monitor alone. -/
theorem told_monitor (m : RosterMonitor) (s : State) : Told s { s with monitor := m } := rfl

theorem hearSender_told (x : StationId) (s : State) : Told s (hearSender x s) := told_monitor _ s

theorem tellMonitor_told (cs : List RosterChange) (s : State) : Told s (tellMonitor cs s) := by
  induction cs generalizing s with
  | nil => exact .refl s
  | cons c cs ih =>
    refine Told.trans ?_ (ih _)
    split
    · exact .refl s
    · exact told_monitor _ s

theorem evictSettled_told (f : Frame) (s : State) : Told s (evictSettled f s) := by
  unfold evictSettled
  split
  · exact told_monitor _ s
  · exact told_monitor _ s
  · exact .refl s

/-- An update of the DECLINEs and the copy alone. -/
theorem told_source (dc : List Decline) (cp : Option CopyState) (cr : Retry) (s : State) :
    Told s { s with declines := dc, copy := cp, copyRetry := cr } := rfl

theorem withdrawDecline_told (f : Frame) (s : State) : Told s (withdrawDecline f s) := by
  unfold withdrawDecline
  split
  · exact told_source _ s.copy s.copyRetry s
  · exact .refl s

theorem abandonCopy_told (cs : List RosterChange) (s : State) : Told s (abandonCopy cs s) := by
  unfold abandonCopy
  split
  · split
    · exact told_source s.declines _ _ s
    · exact .refl s
  · exact .refl s

theorem answerEntry_told (o : Option EntryOutcome) (s : State) : Told s (answerEntry o s) := by
  unfold answerEntry
  split
  · split
    · exact told_source _ s.copy s.copyRetry s
    · exact .refl s
  · split
    · exact told_source s.declines _ _ s
    · exact .refl s
  · exact .refl s

theorem rosterRecord_told (cs : List RosterChange) (s : State) : Told s (rosterRecord cs s) := by
  unfold rosterRecord addRecord
  split
  · exact .refl s
  · exact .refl _

theorem told_replica (r : Replica) (s : State) : Told s { s with replica := r } := rfl

/-- Everything but the host side's and the named fields stands after an application is told, where the roster's word is sound. -/
theorem tellApplied_told (f : Frame) (a : Applied) (s : State) (hg : s.ecc.roster = .good) : Told s (tellApplied f a s) := by
  have h :=
    (told_replica a.replica s).trans <| (tellEvents_told a.events _).trans <| (rosterRecord_told a.changes _).trans <|
      (tellMonitor_told a.changes _).trans <| (evictSettled_told f _).trans <| (withdrawDecline_told f _).trans <|
        (abandonCopy_told a.changes _).trans (answerEntry_told a.entry _)
  exact h.trans (dropGoneNotes_hostSide _ _ (by rw [h.ecc]; exact hg)).told

/-! ### The replica after an application is told -/

theorem makeRecord_replica (r : Record) (s : State) : (makeRecord r s).replica = s.replica := (makeRecord_hostSide r s).replica

theorem tellEvent_replica (e : TableEvent) (s : State) : (tellEvent e s).replica = s.replica := by
  unfold tellEvent
  split
  · cases e with
    | waits => exact (placeTicket_hostSide _ _ s).replica
    | _ => exact makeRecord_replica _ _
  · rfl

theorem tellEvents_replica (es : List TableEvent) (s : State) : (tellEvents es s).replica = s.replica := by
  induction es generalizing s with
  | nil => rfl
  | cons e es ih => exact (ih _).trans (tellEvent_replica e s)

theorem tellMonitor_replica (cs : List RosterChange) (s : State) : (tellMonitor cs s).replica = s.replica := by
  induction cs generalizing s with
  | nil => rfl
  | cons c cs ih =>
    refine (ih _).trans ?_
    split <;> rfl

theorem rosterRecord_replica (cs : List RosterChange) (s : State) : (rosterRecord cs s).replica = s.replica := by
  unfold rosterRecord addRecord
  split <;> rfl

theorem evictSettled_replica (f : Frame) (s : State) : (evictSettled f s).replica = s.replica := by
  unfold evictSettled
  split <;> rfl

theorem withdrawDecline_replica (f : Frame) (s : State) : (withdrawDecline f s).replica = s.replica := by
  unfold withdrawDecline
  split <;> rfl

theorem abandonCopy_replica (cs : List RosterChange) (s : State) : (abandonCopy cs s).replica = s.replica := by
  unfold abandonCopy
  split
  · split <;> rfl
  · rfl

theorem answerEntry_replica (o : Option EntryOutcome) (s : State) : (answerEntry o s).replica = s.replica := by
  unfold answerEntry
  split
  · split <;> rfl
  · split <;> rfl
  · rfl

/-- The told station holds the applied replica. -/
theorem tellApplied_replica (f : Frame) (a : Applied) (s : State) (hg : s.ecc.roster = .good) :
    (tellApplied f a s).replica = a.replica := by
  have h :=
    (told_replica a.replica s).trans <| (tellEvents_told a.events _).trans <| (rosterRecord_told a.changes _).trans <|
      (tellMonitor_told a.changes _).trans <| (evictSettled_told f _).trans <| (withdrawDecline_told f _).trans <|
        (abandonCopy_told a.changes _).trans (answerEntry_told a.entry _)
  refine (dropGoneNotes_hostSide _ _ (by rw [h.ecc]; exact hg)).replica.trans ?_
  rw [answerEntry_replica, abandonCopy_replica, withdrawDecline_replica, evictSettled_replica, tellMonitor_replica,
    rosterRecord_replica, tellEvents_replica]

/-! ### The entry engine after an application is told (R103 to R109) -/

/-- `t` with what the entry engine answers an ENTRY from taken from `s`: replica, ID, DECLINEs, copy and its counts. -/
def withEngine (s t : State) : State :=
  { t with
    replica := s.replica, straps := s.straps, declines := s.declines, copy := s.copy, copyRetry := s.copyRetry }

/-- `t` holds the same as `s` of what the entry engine answers an ENTRY from. -/
def SameEngine (s t : State) : Prop := t = withEngine s t

theorem SameEngine.eq {s t : State} (h : SameEngine s t) : t = withEngine s t := h

theorem SameEngine.refl (s : State) : SameEngine s s := rfl

theorem SameEngine.trans (first : SameEngine s t) (second : SameEngine t u) : SameEngine s u := by
  rw [second.eq, first.eq]
  rfl

theorem SameEngine.declines (h : SameEngine s t) : t.declines = s.declines := by rw [h.eq]; rfl

theorem SameEngine.copy (h : SameEngine s t) : t.copy = s.copy := by rw [h.eq]; rfl

theorem SameEngine.copyRetry (h : SameEngine s t) : t.copyRetry = s.copyRetry := by rw [h.eq]; rfl

theorem HostSide.engine (h : HostSide s t) : SameEngine s t :=
  h.eq.trans (show withEngine s t = withHostSide t s from congrArg (withEngine s) h.eq).symm

theorem tellEvent_engine (e : TableEvent) (s : State) : SameEngine s (tellEvent e s) := by
  unfold tellEvent
  split
  · cases e with
    | waits => exact (placeTicket_hostSide _ _ s).engine
    | _ => exact (makeRecord_hostSide _ _).engine
  · exact SameEngine.refl s

theorem tellEvents_engine (es : List TableEvent) (s : State) : SameEngine s (tellEvents es s) := by
  induction es generalizing s with
  | nil => exact SameEngine.refl s
  | cons e es ih => exact (tellEvent_engine e s).trans (ih _)

theorem rosterRecord_engine (cs : List RosterChange) (s : State) : SameEngine s (rosterRecord cs s) := by
  unfold rosterRecord addRecord
  split <;> rfl

theorem tellMonitor_engine (cs : List RosterChange) (s : State) : SameEngine s (tellMonitor cs s) := by
  induction cs generalizing s with
  | nil => exact SameEngine.refl s
  | cons c cs ih =>
    refine SameEngine.trans ?_ (ih _)
    split <;> rfl

theorem evictSettled_engine (f : Frame) (s : State) : SameEngine s (evictSettled f s) := by
  unfold evictSettled
  split <;> rfl

/-- The withdrawal of a DECLINE reads and writes the entry engine alone. -/
theorem withdrawDecline_engine (f : Frame) (s t : State) :
    withdrawDecline f (withEngine s t) = withEngine (withdrawDecline f s) (withdrawDecline f t) := by
  unfold withdrawDecline
  split <;> rfl

/-- The end of a copy at a settled joiner reads and writes the entry engine alone. -/
theorem abandonCopy_engine (cs : List RosterChange) (s t : State) :
    abandonCopy cs (withEngine s t) = withEngine (abandonCopy cs s) (abandonCopy cs t) := by
  have covered (e : State) : withEngine e (abandonCopy cs t) = withEngine e t := by
    unfold abandonCopy
    repeat' split
    all_goals rfl
  rw [covered]
  unfold abandonCopy
  dsimp only [withEngine]
  repeat' split
  all_goals rfl

/-- The answer to an ENTRY reads and writes the entry engine alone. -/
theorem answerEntry_engine (o : Option EntryOutcome) (s t : State) :
    answerEntry o (withEngine s t) = withEngine (answerEntry o s) (answerEntry o t) := by
  have covered (e : State) : withEngine e (answerEntry o t) = withEngine e t := by
    unfold answerEntry
    repeat' split
    all_goals rfl
  rw [covered]
  unfold answerEntry
  dsimp only [withEngine, self]
  split
  · rename_i m _ _
    by_cases hm : m = s.straps.id <;> simp [hm]
  · rename_i m _
    by_cases hm : m = s.straps.id <;> simp [hm]
  · rfl

/-- What a told application leaves of the entry engine: a DECLINE withdrawn, the copy ended where the joiner's standing moved, and
the ENTRY answered, over the applied replica and nothing else. -/
theorem tellApplied_engine (f : Frame) (a : Applied) (s : State) (hg : s.ecc.roster = .good) :
    SameEngine (answerEntry a.entry (abandonCopy a.changes (withdrawDecline f { s with replica := a.replica })))
      (tellApplied f a s) := by
  have h :=
    (told_replica a.replica s).trans <| (tellEvents_told a.events _).trans <| (rosterRecord_told a.changes _).trans <|
      (tellMonitor_told a.changes _).trans <| (evictSettled_told f _).trans <| (withdrawDecline_told f _).trans <|
        (abandonCopy_told a.changes _).trans (answerEntry_told a.entry _)
  have told :=
    (tellEvents_engine a.events { s with replica := a.replica }).trans <|
      (rosterRecord_engine a.changes _).trans <| (tellMonitor_engine a.changes _).trans (evictSettled_engine f _)
  have answered := congrArg (fun x => answerEntry a.entry (abandonCopy a.changes (withdrawDecline f x))) told
  simp only [withdrawDecline_engine, abandonCopy_engine, answerEntry_engine] at answered
  exact SameEngine.trans answered (dropGoneNotes_hostSide _ _ (by rw [h.ecc]; exact hg)).engine

end Sys2Proof.Machine
end

