-- ==== Sys2Proof/Tests/Slice0.lean ====
section
/-!
SUPPORT. The model's own tests: ill-formed commands refused, worked examples of spec/ run one step at a time, and for every
statement with hypotheses a concrete state and operands that meet them.
-/

namespace Sys2Proof.Tests

-- One theorem after the other: hundreds of kernel evaluations at once take a thread each.
set_option Elab.async false

open Sys2Proof Sys2Proof.Machine

/-! ### Helpers: small states -/

/-- A station of ID 1 in a state of the life cycle, configured for 8 ms with auto-rejoin. -/
def station (life : Life) : State :=
  { State.reset with
    life := life, config := some { interval := .ms8, autoRejoin := true, stopOnFault := false },
    straps := { id := 1, rate := true }, strapPins := { id := 1, rate := true } }

/-- The group tag (1, 2). -/
def tag12 : GroupTag := { founder := 1, count := 2 }

/-- A roster with these IDs FULL. -/
def fullAt (ids : List StationId) : Roster := ids.foldl (fun r i => put r i .full) (Vector.replicate 16 .absent)

/-- Station 1 as a member of group (1, 2) with members 1, 3 and 6 at count 5. -/
def member : State :=
  { station .member with
    replica :=
      { tag := some tag12, interval := some .ms8, sequence := 5, join := none, roster := fullAt [1, 3, 6],
        locks := Vector.replicate 64 .founding } }

/-- The port has collected these bytes. -/
def atPort (bytes : List Byte) (s : State) : State :=
  { s with port :=
      { phase := if bytes.isEmpty then .command else .arguments, collected := bytes, response := [], miso := none } }

/-- A verdict window is open and this was received. -/
def closing (r : Reception) (s : State) : State :=
  { s with round := { s.round with phase := .verdict, reception := some r, pointer := some 1 } }

/-- A frame of group (1, 2) at count 5. -/
def frame (sender : StationId) (body : Body) : Frame := { tag := tag12, sender := sender, sequence := 5, body := body }

/-- The own frame in flight. -/
def flight (source : Source) (f : Frame) : InFlight :=
  { offer := { source := source, body := f.body }, frame := f, bytes := frameBytes f, discarded := false }

/-- This frame is in flight and was read back whole. -/
def sent (fl : InFlight) (s : State) : State :=
  let s' := closing (received fl.frame none) s
  { s' with round := { s'.round with inFlight := some fl } }

/-- An empty verdict window but for one slot. -/
def slot (i : StationId) (m : VerdictSlot) : VerdictSlots := put (Vector.replicate 16 .empty) i m

/-- A verdict window without a mark. -/
def noMarks : VerdictSlots := Vector.replicate 16 .empty

/-- What a next state shows. -/
def shows {α : Type} (o : Host.Outcome State Fault Refusal) (view : State → α) : Option α :=
  match o with
  | .next t => some (view t)
  | _ => none

/-! ### Well-formedness -/

theorem test_bad_command_names_a_command : (Instr.badCommand 0x01).wellFormed = false := by decide
theorem test_bad_command_top_code : (Instr.badCommand 0x10).wellFormed = false := by decide
theorem test_note_short_payload : (Instr.note 3 0 2 [7]).wellFormed = false := by decide
theorem test_note_payload_past_bad_length : (Instr.note 3 0 17 [7]).wellFormed = false := by decide
theorem test_request_close_without_mark : (Instr.requestWindowClose (Vector.replicate 16 .empty)).wellFormed = false := by
  decide +kernel

/-! ### Worked examples of spec/ -/

/-- 03 section 3.2: the window read with pointer 6. -/
def window32 : RequestSlots :=
  put (put (put (put (put (Vector.replicate 16 .empty) 2 .expedited) 5 .ordinary) 9 .ordinary) 11 .expedited) 14 .ordinary

theorem test_winner_from_six : winner 6 window32 = some 11 := by decide +kernel
theorem test_winner_from_twelve : winner 12 (put window32 11 .empty) = some 2 := by decide +kernel
theorem test_winner_from_three : winner 3 (put (put window32 11 .empty) 2 .empty) = some 5 := by decide +kernel

/-- 12 section 12.1: the CRC of R187 over the nine digits, a value the generator and preset fix. -/
theorem test_check_word : checkWord [0x31, 0x32, 0x33, 0x34, 0x35, 0x36, 0x37, 0x38, 0x39] = 0x29B1#16 := by decide +kernel

/-- 12 section 12.1: header and body of a CLAIM by station 6 of group (1, 2) at count 0305h: lock 9, SHARED, HIGH, TRY, ticket 3. -/
theorem test_claim_bytes :
    plainBytes { tag := tag12, sender := 6, sequence := 0x0305#16, body := .claim 9 .shared .high .tryNow 3 } =
      [0x16, 0x02, 0x01, 0x03, 0x05, 0x09, 0xE3] := by decide +kernel

/-- 12 section 12.1: the bytes of an ADMIT of joiner 4 after two copies, and a reserved bit set in a CLAIM refused. -/
theorem test_admit_bytes : bodyBytes (.admission 4 2) = [0x04, 0x02] := by decide +kernel
theorem test_claim_reserved_bit : bodyOf 0x01 [0x09, 0xF3] = none := by decide +kernel

/-- 12 section 12.1: two bits for each ID, ID 0 highest; 2 is FULL, 1 is PENDING. -/
theorem test_roster_bytes : rosterBytes (put (fullAt [1, 3, 6]) 4 .pending) = [0x22, 0x48, 0x00, 0x00] := by decide +kernel

/-- 01 section 1.3: the queue of lock 9 under mixed claims. -/
def queue13 : List ClaimEntry :=
  insertEntry { station := 4, mode := .sole, cls := .standard, ticket := 0 }
    (insertEntry { station := 1, mode := .shared, cls := .high, ticket := 0 }
      (insertEntry { station := 7, mode := .sole, cls := .high, ticket := 0 }
        (insertEntry { station := 5, mode := .shared, cls := .standard, ticket := 0 } [])))

theorem test_queue_order : queue13.map ClaimEntry.station = [7, 1, 5, 4] := by decide +kernel

/-- 11 section 11.1: lock 17 SOLE at station 3, four claims waiting. -/
def lock17 : LockRecord :=
  { state := .sole, holders := addTo noIds 3, generation := 40,
    queue :=
      [{ station := 5, mode := .shared, cls := .high, ticket := 1 }, { station := 8, mode := .shared, cls := .standard, ticket := 0 },
       { station := 10, mode := .shared, cls := .standard, ticket := 3 }, { station := 0, mode := .sole, cls := .standard, ticket := 2 }] }

theorem test_yield_grants_a_batch :
    (applyYield 3 17 5 (put (Vector.replicate 64 .founding) 17 lock17)).2 =
      [.yielded 3 5 17, .granted 5 1 17 41, .granted 8 0 17 42, .granted 10 3 17 43] := by decide +kernel

theorem test_yield_leaves_sole_waiting :
    ((applyYield 3 17 5 (put (Vector.replicate 64 .founding) 17 lock17)).1[(17 : LockId)]).queue.map ClaimEntry.station = [0] := by
  decide +kernel

/-- 02 section 2.9, order one: station 7 at 117 meets a BEACON of station 2 at 118. -/
def behind29 : State :=
  { closing (received { tag := tag12, sender := 2, sequence := 118, body := .beacon .ms8 } none)
      { member with replica := { member.replica with sequence := 117 } } with straps := { id := 7, rate := false } }

theorem test_missed_is_recorded :
    shows (exec (.verdictWindowClose noMarks) behind29) (fun t => (t.life, t.fault)) =
      some (.excluded, some { kind := .missed, sequence := 117, sender := some 2 }) := by decide +kernel

/-- 09 section 9.6: the recall of a queued claim is answered DONE_LOCAL with RECALLED. -/
def recall96 : State :=
  { atPort [0x05, 4] member with
    tickets := put (put (Vector.replicate 16 none) 0 (some { kind := .claim 21, place := .queued })) 1
      (some { kind := .claim 4, place := .queued }),
    hostQueue := [.claim 21 .sole .standard .wait 0, .claim 4 .shared .standard .tryNow 1] }

theorem test_local_recall :
    shows (exec (.recall 4 1) recall96) (fun t => (t.port.response, t.records, t.hostQueue)) =
      some ([0x08], [.recalled 1 4], [.claim 21 .sole .standard .wait 0]) := by decide +kernel

/-- 07 section 7.7: the lease of lock 14 counts out and the EXPIRE is offered. -/
theorem test_lease_counts_out :
    shows (exec (.leaseCountOut 14) { member with leases := [.running 14 30] })
        (fun t => (t.leases, (selectOffer t).map Offer.body)) =
      some ([.countedOut 14], some (.expire 14)) := by decide +kernel

/-- 10 section 10.6: stop-on-fault set, the read of lock 9's queue fails at the close that accepts a CLAIM for it. -/
def fatal106 : State :=
  { closing (received (frame 3 (.claim 9 .sole .standard .wait 0)) none) member with
    config := some { interval := .ms8, autoRejoin := true, stopOnFault := true },
    ecc := { StoreCondition.sound with queues := put StoreCondition.sound.queues 9 .uncorrectable } }

theorem test_fatal_fault_halts :
    shows (exec (.verdictWindowClose noMarks) fatal106)
        (fun t => (t.life, t.fault, t.pendingStop, t.replica.sequence, t.records)) =
      some (.halted, some { kind := .uncorrectable, sequence := 5, sender := some 3 }, some .fault, 5,
        [.stateChanged (.halted .fault)]) := by decide +kernel

/-! ### Every statement with hypotheses: a state and operands that meet them -/

theorem meets_StepRunsTheFrontCommandOrIdles : State.reset.pending = [] := by decide +kernel

theorem meets_SelectOpensAndEndsATransaction : State.reset.port.phase = .idle := by decide +kernel

theorem meets_ByteActsByPortPhase_collecting :
    (atPort [0x03] member).port.phase = .arguments ∧
      commandComplete ((atPort [0x03] member).port.collected ++ [0x09]) = false := by decide +kernel

theorem meets_ByteActsByPortPhase_first :
    (atPort [] member).port.phase = .command ∧ commandComplete ((atPort [] member).port.collected ++ [0x06]) = false := by
  decide +kernel

/-- A port that responds with its last byte. -/
def responding : State := { member with port := { phase := .responding, collected := [], response := [0x07], miso := none } }

theorem meets_ByteActsByPortPhase_responding :
    responding.port.phase = .responding ∧ responding.port.response = 0x07 :: [] := by decide +kernel

theorem meets_ByteActsByPortPhase_discarding :
    ({ member with port := { phase := .discarding, collected := [], response := [], miso := none } } : State).port.phase =
      .discarding := by decide +kernel

theorem meets_LastByteTakesTheCommand :
    (Instr.note 3 0 1 [7]).wellFormed = true ∧ commandBytes (.note 3 0 1 [7]) = some ([0x06, 3, 0, 1] ++ [7]) ∧
      Collected [0x06, 3, 0, 1] (atPort [0x06, 3, 0, 1] member) := by decide +kernel

theorem meets_CommandsAreRefusedByStatusAlone_code :
    ((0x11 : Byte) = 0x00 ∨ 0x10 < (0x11 : Byte).toNat) ∧ Collected [] (atPort [] member) := by decide +kernel

theorem meets_CommandsAreRefusedByStatusAlone_state :
    Instr.restart.wellFormed = true ∧ commandBytes .restart = some ([] ++ [0x0D]) ∧ Collected [] (atPort [] member) ∧
      takenIn .restart = some [.halted] ∧ (atPort [] member).life ∉ [Life.halted] := by decide +kernel

theorem meets_CommandsAreRefusedByStatusAlone_start :
    Collected [0x02] (atPort [0x02] (station .excluded)) ∧ (atPort [0x02] (station .excluded)).life = .excluded ∧
      4 < ((5 : Byte).extractLsb' 0 3).toNat := by decide +kernel

theorem meets_CommandsAreRefusedByStatusAlone_lock :
    Collected [0x03, 64, 0] (atPort [0x03, 64, 0] member) ∧ Collected [0x04] (atPort [0x04] member) ∧
      Collected [0x09] (atPort [0x09] member) ∧ member.life = .member ∧ 63 < (64 : Byte).toNat := by decide +kernel

theorem meets_CommandsAreRefusedByStatusAlone_recall :
    Collected [0x05, 63] (atPort [0x05, 63] member) ∧ member.life = .member ∧ 15 < (16 : Byte).toNat := by decide +kernel

/-- Ticket 15 stands for a CLAIM of lock 62, QUEUED: no CLAIM of lock 63. -/
theorem meets_CommandsAreRefusedByStatusAlone_recall_target :
    let s := { atPort [0x05, 63] member with
      tickets := put (Vector.replicate 16 none) 15 (some { kind := .claim 62, place := .queued }) }
    Collected [0x05, 63] s ∧ s.life = .member ∧ (63 : Byte).toNat = (63 : LockId).val ∧
      (15 : Byte).toNat = (15 : TicketId).val ∧ s.tickets[(15 : TicketId)] ≠ some { kind := .claim 63, place := .queued } ∧
      s.tickets[(15 : TicketId)] ≠ some { kind := .claim 63, place := .waiting } := by decide +kernel

theorem meets_CommandsAreRefusedByStatusAlone_note :
    (Instr.note 3 0 17 []).wellFormed = true ∧ (0x06 : Byte) :: 3 :: 0 :: 17 :: [] = [0x06, 3, 0] ++ [17] ∧
      Collected [0x06, 3, 0] (atPort [0x06, 3, 0] member) ∧ member.life = .member ∧ 16 < (17 : Byte).toNat := by decide +kernel

theorem meets_CommandsAreRefusedByStatusAlone_note_to_self :
    (Instr.note 1 0 0 []).wellFormed = true ∧ (0x06 : Byte) :: 1 :: 0 :: 0 :: [] = [0x06, 1, 0] ++ [0] ∧
      Collected [0x06, 1, 0] (atPort [0x06, 1, 0] member) ∧ member.life = .member ∧
      (1 : Byte).toNat = member.straps.id.val := by decide +kernel

/-- Seven frames queued, so that the queue has room for one, and tickets 0 and 1 in use. -/
def busyHost (s : State) : State :=
  { s with
    hostQueue := List.replicate 7 (.yield 4 0),
    tickets := put (put s.tickets 0 (some { kind := .yield, place := .queued })) 1 (some { kind := .yield, place := .recorded }) }

theorem meets_ClaimIsQueuedUnderATicket :
    let s := busyHost (atPort [0x03, 63, 0xE0] { member with leases := List.replicate 7 (.countedOut 5) })
    Collected [0x03, 63, 0xE0] s ∧ s.life = .member ∧ (63 : Byte).toNat = (63 : LockId).val ∧
      (0xE0 : Byte) =
        BitVec.ofBool (modeBit .shared) ++ BitVec.ofBool (classBit .high) ++ BitVec.ofBool (formBit .tryNow) ++ 0#5 ∧
      LowestFree 2 s ∧ s.hostQueue.length < 8 ∧ s.leases.length < 8 := by decide +kernel

theorem meets_YieldIsQueuedAndStopsTheLease :
    let s := busyHost (atPort [0x04] { member with leases := [.countedOut 4] ++ .running 4 1 :: [.running 5 9] })
    Collected [0x04] s ∧ s.life = .member ∧ (4 : Byte).toNat = (4 : LockId).val ∧ LowestFree 2 s ∧ s.hostQueue.length < 8 ∧
      s.leases = [.countedOut 4] ++ .running 4 1 :: [.running 5 9] ∧ (1 : Byte) ≠ 0 ∧
      (∀ l ∈ [Lease.countedOut 4] ++ [.running 5 9], runningFor 4 l = false) := by decide +kernel

theorem meets_YieldIsQueuedAndStopsTheLease_unleased :
    let s := busyHost (atPort [0x04] member)
    Collected [0x04] s ∧ s.life = .member ∧ LowestFree 2 s ∧ s.hostQueue.length < 8 ∧
      ∀ l ∈ s.leases, runningFor 4 l = false := by decide +kernel

/-- No ticket is free. -/
def noTickets (s : State) : State := { s with tickets := Vector.replicate 16 (some { kind := .note, place := .recorded }) }

theorem meets_NoRoomRefusesTheCommand_tickets :
    let s := noTickets (atPort [0x04] member)
    commandBytes (.yield 63) = some ([0x04] ++ [63]) ∧ Collected [0x04] s ∧ s.life = .member ∧ (63 : Byte).toNat < 64 ∧
      ∀ t : TicketId, s.tickets[t] ≠ none := by decide +kernel

theorem meets_NoRoomRefusesTheCommand_queue :
    let s := { atPort [0x06, 15, 15] member with hostQueue := List.replicate 8 (.yield 4 0) }
    commandBytes (.note 15 15 0 []) = some ([0x06, 15, 15] ++ [0]) ∧ Collected [0x06, 15, 15] s ∧ s.life = .member ∧
      (15 : Byte).toNat ≠ s.straps.id.val ∧ (∃ t : TicketId, s.tickets[t] = none) ∧ 8 ≤ s.hostQueue.length := by
  decide +kernel

theorem meets_NoRoomRefusesTheCommand_lease :
    let s := busyHost (atPort [0x03, 0, 0] { member with leases := List.replicate 8 (.countedOut 5) })
    commandBytes (.claim 0 0 1) = some ([0x03, 0, 0] ++ [1]) ∧ Collected [0x03, 0, 0] s ∧ s.life = .member ∧
      (0 : Byte).extractLsb' 0 5 = 0 ∧ (1 : Byte) ≠ 0 ∧ (∃ t : TicketId, s.tickets[t] = none) ∧ s.hostQueue.length < 8 ∧
      8 ≤ s.leases.length := by decide +kernel

/-- Every ticket stands for a CLAIM of lock 63 that waits, and the queue is full. -/
def allWaiting (s : State) : State :=
  { s with
    tickets := Vector.replicate 16 (some { kind := .claim 63, place := .waiting }),
    hostQueue := List.replicate 8 (.yield 4 0) }

theorem meets_NoRoomRefusesTheCommand_recall :
    let s := allWaiting (atPort [0x05, 63] member)
    commandBytes (.recall 63 15) = some ([0x05, 63] ++ [15]) ∧ Collected [0x05, 63] s ∧ s.life = .member ∧
      (63 : Byte).toNat = (63 : LockId).val ∧ (15 : Byte).toNat = (15 : TicketId).val ∧
      s.tickets[(15 : TicketId)] = some { kind := .claim 63, place := .waiting } ∧ (∀ t : TicketId, s.tickets[t] ≠ none) ∧
      (put s.tickets 0 none)[(0 : TicketId)] = none ∧ 8 ≤ s.hostQueue.length := by decide +kernel

theorem meets_RecallRemovesOrIsQueued_local :
    Collected [0x05, 4] recall96 ∧ recall96.life = .member ∧ (4 : Byte).toNat = (4 : LockId).val ∧
      (1 : Byte).toNat = (1 : TicketId).val ∧ recall96.tickets[(1 : TicketId)] = some { kind := .claim 4, place := .queued } ∧
      recall96.hostQueue =
        [.claim 21 .sole .standard .wait 0] ++ .claim 4 .shared .standard .tryNow 1 :: [] ∧
      (∀ f ∈ [HostFrame.claim 21 .sole .standard .wait 0], hostTicket f ≠ 1) ∧ hostInFlight 1 recall96 = false := by
  decide +kernel

theorem meets_RecallRemovesOrIsQueued_waiting :
    let s := { atPort [0x05, 21] member with
      tickets := put (Vector.replicate 16 none) 0 (some { kind := .claim 21, place := .waiting }) }
    Collected [0x05, 21] s ∧ s.life = .member ∧ (21 : Byte).toNat = (21 : LockId).val ∧
      s.tickets[(0 : TicketId)] = some { kind := .claim 21, place := .waiting } ∧ LowestFree 1 s ∧ s.hostQueue.length < 8 := by
  decide +kernel

theorem meets_NoteIsQueuedOrGone :
    let s := atPort [0x06, 6, 15] member
    (Instr.note 6 15 0 []).wellFormed = true ∧ (0x06 : Byte) :: 6 :: 15 :: 0 :: [] = [0x06, 6, 15] ++ [0] ∧
      Collected [0x06, 6, 15] s ∧ s.life = .member ∧ (6 : StationId) ≠ s.straps.id ∧ LowestFree 0 s ∧ s.hostQueue = [] ∧
      s.ecc.roster = .good ∧ s.replica.roster[(6 : StationId)] = .full := by decide +kernel

theorem meets_NoteIsQueuedOrGone_gone :
    let s := atPort (0x06 :: 5 :: 0 :: 16 :: List.replicate 15 7) member
    (Instr.note 5 0 16 (List.replicate 16 7)).wellFormed = true ∧ (16 : Byte).toNat ≤ 16 ∧
      (0x06 : Byte) :: 5 :: 0 :: 16 :: List.replicate 16 7 = (0x06 :: 5 :: 0 :: 16 :: List.replicate 15 7) ++ [7] ∧
      Collected (0x06 :: 5 :: 0 :: 16 :: List.replicate 15 7) s ∧ LowestFree 0 s ∧ s.hostQueue = [] ∧
      s.ecc.roster = .good ∧ s.replica.roster[(5 : StationId)] ≠ .full := by decide +kernel

theorem meets_NextAndTakeNoteTakeTheOldest :
    let s := { atPort [] member with
      records := [.leaseExpired 14, .granted 2 14 8, .rosterChanged, .noteArrived, .stateChanged .admitted],
      leases := [.running 3 4] ++ .reported 14 :: [], inbound := [{ sender := 3, topic := 15, payload := [1, 2] }] }
    Collected [] s ∧
      s.records = .leaseExpired 14 :: [.granted 2 14 8, .rosterChanged, .noteArrived, .stateChanged .admitted] ∧
      s.leases = [.running 3 4] ++ .reported 14 :: [] ∧ Lease.reported 14 ∉ [Lease.running 3 4] ∧
      ticketOfRecord (.granted 2 14 8) = some 2 ∧ s.inbound = { sender := 3, topic := 15, payload := [1, 2] } :: [] := by
  decide +kernel

theorem meets_StatusShowsTheStation : Collected [] (atPort [] (station .off)) := by decide +kernel

theorem meets_LooksShowTheReplica :
    Collected [0x09] (atPort [0x09] member) ∧ (63 : Byte).toNat = (63 : LockId).val ∧
      AllGood [.lock 63, .queue 63] (atPort [0x09] member).ecc ∧ Collected [] (atPort [] (station .halted)) ∧
      AllGood [.roster, .join] (atPort [] (station .halted)).ecc ∧ (station .halted).life = .halted := by decide +kernel

/-- Storage whose word for the queue of lock 63 is in this condition. -/
def queue63 (c : WordCondition) : StoreCondition :=
  { StoreCondition.sound with queues := put StoreCondition.sound.queues 63 c }

theorem meets_DamagedWordStopsTheMember :
    let s := { atPort [0x09] member with ecc := queue63 .uncorrectable }
    Collected [0x09] s ∧ (63 : Byte).toNat = (63 : LockId).val ∧ conditionOf (.queue 63) s.ecc = .uncorrectable ∧
      (∀ w ∈ [StoreWord.lock 63, .queue 63], conditionOf w s.ecc ≠ .correctable) ∧ s.life = .member ∧
      shows (exec (.lookLock 63) s) (fun t => (t.life, t.port.response)) = some (.excluded, [0x02]) := by decide +kernel

theorem meets_DamagedWordStopsTheMember_roster :
    let s := { atPort [] (station .halted) with ecc := { StoreCondition.sound with join := .uncorrectable } }
    Collected [] s ∧ conditionOf .join s.ecc = .uncorrectable ∧
      (∀ w ∈ [StoreWord.roster, .join], conditionOf w s.ecc ≠ .correctable) ∧ s.life = .halted := by decide +kernel

theorem meets_DamagedWordStopsTheMember_correctable :
    let s := { atPort [0x09] member with ecc := queue63 .correctable }
    conditionOf (.queue 63) s.ecc = .correctable ∧
      (∀ v ∈ [StoreWord.lock 63, .queue 63], v ≠ .queue 63 → conditionOf v s.ecc = .good) ∧
      shows (exec (.lookLock 63) s) (fun t => (t.counters.corrected, t.ecc)) = some (1, StoreCondition.sound) := by
  decide +kernel

theorem meets_DamagedWordStopsTheMember_application :
    let f := frame 3 (.yield 63 0)
    let s := fun c => { closing (received f none) member with ecc := queue63 c }
    let words := applicationReads (member.straps.id) f member.replica
    AtVerdict (received f none) (s .uncorrectable) ∧ (s .uncorrectable).round.inFlight = none ∧ isTable f.body = true ∧
      f.sequence = member.replica.sequence ∧ member.replica.tag = some f.tag ∧ Unmarked noMarks ∧ .queue 63 ∈ words ∧
      conditionOf (.queue 63) (s .uncorrectable).ecc = .uncorrectable ∧
      (∀ w ∈ words, conditionOf w (s .uncorrectable).ecc ≠ .correctable) ∧
      conditionOf (.queue 63) (s .correctable).ecc = .correctable ∧
      (∀ v ∈ words, v ≠ .queue 63 → conditionOf v (s .correctable).ecc = .good) := by decide +kernel

theorem meets_FaultsAreShownAndCleared : Collected [] (atPort [] (station .halted)) := by decide +kernel

theorem meets_StartEntersListening :
    Collected [0x02] (atPort [0x02] State.reset) ∧ (atPort [0x02] State.reset).life = .off ∧
      (0xC4 : Byte) = BitVec.ofBool true ++ BitVec.ofBool true ++ 0#3 ++ (intervalCode .ms64).extractLsb' 0 3 := by
  decide +kernel

theorem meets_LeaveAndStopActByState :
    Collected [] (atPort [] member) ∧ member.life = .member ∧ (station .excluded).life = .excluded := by decide +kernel

/-- A joiner of group (1, 2) whose own ENTRY has been accepted. -/
def joiner (life : Life) : State :=
  { station life with
    join := { JoinState.none with
      target := some tag12, tracked := some 5, isOpen := true, joinTimer := some 32, stallTimer := some 128,
      source := some 3, rosterCopy := some { roster := fullAt [3], interval := .ms8, cut := 5 } } }

theorem meets_LeaveAndStopActByState_open :
    let s := atPort [] (joiner .copying)
    Collected [] s ∧ s.life = .copying ∧ s.pendingLeave ≠ some .soloVeto ∧ s.join.entryPending = false ∧
      s.join.isOpen = true ∧ s.join.abort = none := by decide +kernel

theorem meets_LeaveAndStopActByState_aborting :
    let s := atPort [] { joiner .copying with
      pendingLeave := some .abort, join := { (joiner .copying).join with abort := some .listening } }
    s.pendingLeave ≠ some .soloVeto ∧ s.join.entryPending = false ∧ s.join.abort = some .listening := by decide +kernel

/-- A joiner whose ENTRY is pending. -/
def enterer : State :=
  { station .entering with
    join := { JoinState.none with target := some tag12, tracked := some 5, entryPending := true } }

theorem meets_LeaveAndStopActByState_entry :
    let s := sent (flight .entry (frame 1 (.entry .ms8))) enterer
    s.life = .entering ∧ s.join.entryPending = true ∧ sourceInFlight .entry s = true ∧
      sourceInFlight .entry enterer = false := by decide +kernel

theorem meets_LeaveAndStopActByState_soloVeto :
    let s := atPort [] { joiner .copying with pendingLeave := some .soloVeto }
    Collected [] s ∧ s.life = .copying ∧ s.join.entryPending = false ∧ s.pendingLeave = some .soloVeto := by decide +kernel

theorem meets_LeaveAndStopActByState_close :
    let fl := flight .leave (frame 1 .leave)
    let s := sent fl { member with pendingLeave := some .command }
    AtVerdict (received fl.frame none) s ∧ s.round.inFlight = some fl ∧ fl.offer.source = .leave ∧ fl.discarded = false ∧
      fl.frame.body = .leave ∧ s.life = .member ∧ s.pendingLeave = some .command ∧ Unmarked noMarks ∧
      (∀ i : StationId, (slot 6 .veto)[i] ≠ .stale) ∧ (slot 6 .veto)[(6 : StationId)] = .veto ∧
      shows (exec (.verdictWindowClose noMarks) s) (fun t => t.exclusionReason) = some (some .left) ∧
      shows (exec (.verdictWindowClose (slot 6 .veto)) { s with pendingLeave := some .soloVeto })
        (fun t => t.exclusionReason) = some (some .soloVeto) := by decide +kernel

theorem meets_RestartEntersListening :
    Collected [] (atPort [] (station .halted)) ∧ (station .halted).life = .halted := by decide +kernel

theorem meets_ResetsGiveTheResetState : Collected [] (atPort [] member) := by decide +kernel

theorem meets_OnlyAnOfferedFrameStartsARound :
    let s := { member with pendingLeave := some .command }
    s.round.phase = .idle ∧ selectOffer s ≠ none ∧ s.round.pointer = none ∧
      ({ s.round with pointer := some 15 } : RoundEngine).pointer ≠ none ∧ selectOffer member = none := by decide +kernel

theorem meets_SelectorFollowsItsOrder :
    let s := { member with
      monitor := { RosterMonitor.stopped with beaconDue := true }, hostQueue := [.yield 4 0], busyWait := some 8 }
    s.life = .member ∧ s.pendingStop = none ∧ s.pendingLeave = none ∧
      (∀ x : StationId, has s.monitor.pendingEvict x = false) ∧ (∀ k : LockId, has s.expireSet k = false) ∧
      s.join.entryPending = false ∧ s.declines = [] ∧ s.copy = none ∧ s.busyWait ≠ none := by decide +kernel

theorem meets_SelectorFollowsItsOrder_sets :
    let s := { member with
      monitor := { RosterMonitor.stopped with pendingEvict := addTo (addTo noIds 6) 15 }, expireSet := addTo noLocks 63 }
    has s.monitor.pendingEvict 6 = true ∧ (∀ y : StationId, y < 6 → has s.monitor.pendingEvict y = false) ∧
      has s.expireSet 63 = true ∧ ∀ j : LockId, j < 63 → has s.expireSet j = false := by decide +kernel

theorem meets_RequestWindowOpensWithTheChoice :
    member.life ≠ .off ∧ member.round.phase = .idle ∧
      ∀ c f rest, member.copy = some c → c.frames = f :: rest → AllGood (copyReads f) c.ecc := by
  refine ⟨by decide +kernel, by decide +kernel, fun c f rest h => ?_⟩
  cases h

/-- A copy under way: joiner 4, the roster sent, one lock and the ADMIT to come. -/
def copying : CopyState := { joiner := 4, shadow := member.replica, ecc := .sound, frames := [.lock 63, .admission 1] }

theorem meets_RequestWindowOpensWithTheChoice_copy : AllGood (copyReads (.lock 63)) copying.ecc := by decide +kernel

/-- A member in the request window with its YIELD chosen and pointer 15. -/
def requesting : State :=
  { member with
    hostQueue := [.yield 4 0],
    round := { member.round with
      phase := .request, pointer := some 15, chosen := some { source := .host 0, body := .yield 4 0 } } }

theorem meets_WinnerIsFirstInTheCount :
    let slots : RequestSlots := put (Vector.replicate 16 .empty) 1 .expedited
    requesting.round.phase = .request ∧ (∃ i : StationId, slots[i] ≠ .empty) ∧
      winner 15 slots = some requesting.straps.id ∧ stillOffered { source := .host 0, body := .yield 4 0 } requesting = true ∧
      winner 15 (put slots 0 .expedited) ≠ some requesting.straps.id := by decide +kernel

theorem meets_RequestWindowClosesWithOrWithoutAWinner :
    let slots : RequestSlots := put (Vector.replicate 16 .empty) 1 .ordinary
    requesting.round.phase = .request ∧ (∃ i : StationId, slots[i] ≠ .empty) ∧ requesting.round.pointer = some 15 ∧
      winner 15 slots = some requesting.straps.id ∧
      requesting.round.chosen = some { source := .host 0, body := .yield 4 0 } ∧
      stillOffered { source := .host 0, body := .yield 4 0 } requesting = true ∧
      stillOffered { source := .host 0, body := .yield 4 0 } { requesting with hostQueue := [] } = false := by decide +kernel

/-- A member in the frame part. -/
def listeningIn (s : State) : State := { s with round := { s.round with phase := .frame, pointer := some 1 } }

theorem meets_ObserverMarksTheFrame :
    let s := listeningIn member
    s.round.phase = .frame ∧ s.round.inFlight = none ∧ s.life ≠ .off ∧ frameOf [] = none ∧ s.round.suppressed = false ∧
      frameOf (frameBytes (frame 3 (.note 1 2 [9]))) = some (frame 3 (.note 1 2 [9])) ∧
      frameOf (frameBytes (frame 1 .leave)) = some (frame 1 .leave) := by decide +kernel

theorem meets_ObserverMarksTheFrame_sequence :
    let old : Frame := { frame 3 .leave with sequence := 0x8005#16 }
    let new : Frame := { frame 3 .leave with sequence := 0x8004#16 }
    frameOf (frameBytes old) = some old ∧ frameOf (frameBytes new) = some new ∧ comparedKind old.body = true ∧
      32768 ≤ (old.sequence - member.replica.sequence).toNat ∧
      (new.sequence - member.replica.sequence).toNat ≤ 32767 ∧ old.sender ≠ member.straps.id ∧
      member.replica.tag = some old.tag := by decide +kernel

theorem meets_TransmitterReadsItsFrameBack :
    let fl := flight (.host 0) (frame 1 (.yield 4 0))
    let s := { listeningIn member with round := { (listeningIn member).round with inFlight := some fl } }
    s.round.phase = .frame ∧ s.round.inFlight = some fl ∧ s.life ≠ .off ∧ frameOf fl.bytes = some fl.frame ∧
      fl.bytes.dropLast ≠ fl.bytes := by decide +kernel

theorem meets_MemberAppliesAnAcceptedTableFrame :
    let f := frame 3 (.claim 63 .sole .standard .wait 15)
    let s := closing (received f none) member
    AtVerdict (received f none) s ∧ s.round.inFlight = none ∧ s.life = .member ∧ s.replica.tag = some f.tag ∧
      isTable f.body = true ∧ f.sequence = s.replica.sequence ∧ Unmarked noMarks ∧
      AllGood (applicationReads s.straps.id f s.replica) s.ecc ∧ evictsSelf f s = false := by decide +kernel

/-- An ENTRY of station 15 at its lowest FULL ID, which opens the join, and one that it declines. -/
theorem meets_MemberAppliesAnAcceptedTableFrame_entry :
    let f := frame 15 (.entry .ms8)
    let g := frame 15 (.entry .ms64)
    let s := closing (received f none) member
    AtVerdict (received f none) s ∧ isEntry f.body = true ∧ AllGood (applicationReads s.straps.id f s.replica) s.ecc ∧
      (applyFrame f s.replica).entry = some (.opened s.straps.id 15) ∧
      (applyFrame g s.replica).entry = some (.declined s.straps.id 15 .config) ∧
      shows (exec (.verdictWindowClose noMarks) s) (fun t => t.copy.map CopyState.frames) =
        some (some [.roster, .admission 0]) := by decide +kernel

/-- A copy under way whose joiner the applied frame concerns, and one that it does not. -/
theorem meets_MemberAppliesAnAcceptedTableFrame_copy :
    let f := frame 3 (.evict 6)
    (applyFrame f member.replica).entry = none ∧
      (∃ x ∈ (applyFrame f member.replica).changes, x.id = (6 : StationId)) ∧
      ∀ x ∈ (applyFrame f member.replica).changes, x.id ≠ (4 : StationId) := by decide +kernel

theorem meets_OwnClaimIsGrantedAtItsClose :
    let f := frame 1 (.claim 14 .sole .standard .wait 2)
    let s := { sent (flight (.host 2) f) member with
      hostQueue := [.claim 14 .sole .standard .wait 2], leases := [.reserved 14 30 2],
      tickets := put (Vector.replicate 16 none) 2 (some { kind := .claim 14, place := .queued }) }
    AtVerdict (received f none) s ∧ f.sender = s.straps.id ∧ s.round.inFlight = some (flight (.host 2) f) ∧
      s.life = .member ∧ s.replica.tag = some f.tag ∧ s.replica.roster[s.straps.id] = .full ∧ Unmarked noMarks ∧
      s.tickets[(2 : TicketId)] = some { kind := .claim 14, place := .queued } ∧
      s.replica.locks[(14 : LockId)] = .founding ∧ AllGood (applicationReads s.straps.id f s.replica) s.ecc ∧
      shows (exec (.verdictWindowClose noMarks) s) (fun t => (t.leases, t.records)) =
        some ([.running 14 30], [.granted 2 14 1]) := by decide +kernel

theorem meets_VoidedFrameMovesOnlyTheRoundAndCounts :
    let s := closing (received (frame 3 .leave) none) member
    AtVerdict (received (frame 3 .leave) none) s ∧ s.round.inFlight = none ∧
      ∃ i : StationId, (slot 6 .veto)[i] = .veto := by decide +kernel

theorem meets_VoidedFrameMovesOnlyTheRoundAndCounts_halted :
    let r := receivedIn true (frame 3 .leave) none
    AtVerdict r (closing r (station .halted)) ∧ (closing r (station .halted)).round.inFlight = none := by decide +kernel

/-- R65: a frame received whole in MEMBER sets the solo-veto count to 0 at the close, also where a storage fault met by LOOK_ROSTER
has halted the station before it. -/
theorem test_solo_vetoes_of_a_station_halted_before_the_close :
    let open3 := closing (received (frame 3 .leave) none) member
    let s := { atPort [] open3 with
      round := { open3.round with soloVetoes := 3 },
      config := some { interval := .ms8, autoRejoin := true, stopOnFault := true },
      ecc := { StoreCondition.sound with roster := .uncorrectable } }
    (match exec .lookRoster s with
      | .next t => shows (exec (.verdictWindowClose noMarks) t) fun u => (t.life, t.round.soloVetoes, u.round.soloVetoes)
      | _ => none) = some (.halted, 3, 0) := by decide +kernel

theorem meets_VoidedFrameMovesOnlyTheRoundAndCounts_own :
    let s := closing (unreceived false) member
    AtVerdict (unreceived false) s ∧ s.round.inFlight = none ∧ s.round.won = false ∧ (slot 1 .veto)[s.straps.id] = .veto ∧
      s.round.soloVetoes + 1 < 4 ∧ ∃ i : StationId, i ≠ s.straps.id ∧ (put (slot 1 .veto) 15 .veto)[i] = .veto := by
  decide +kernel

theorem meets_AcceptedNoteIsStored :
    let f := frame 3 (.note 1 2 [9])
    let s := { closing (received f (some .taken)) member with
      inbound := List.replicate 7 { sender := 6, topic := 0, payload := [] } }
    AtVerdict (received f (some .taken)) s ∧ s.round.inFlight = none ∧ f.body = .note s.straps.id 2 [9] ∧
      s.life = .member ∧ s.replica.tag = some f.tag ∧ f.sequence = s.replica.sequence ∧ f.sender ≠ s.straps.id ∧
      (slot 1 .taken)[s.straps.id] = .taken ∧ Unmarked (slot 1 .taken) ∧ s.inbound.length < 8 := by decide +kernel

theorem meets_StaleMissedAndEvictedStationsExcludeThemselves :
    let fl := flight (.host 0) (frame 1 (.yield 30 0))
    let s := sent fl member
    AtVerdict (received fl.frame none) s ∧ s.round.inFlight = some fl ∧ (∃ i : StationId, (slot 6 .stale)[i] = .stale) ∧
      s.life = .member ∧ s.ecc.roster = .good ∧
      shows (exec (.verdictWindowClose (slot 6 .stale)) s) (fun t => (t.life, t.fault)) =
        some (.excluded, some { kind := .stale, sequence := 5, sender := some 1 }) := by decide +kernel

theorem meets_StaleMissedAndEvictedStationsExcludeThemselves_missed :
    let f : Frame := { frame 3 .leave with sequence := 0x8004#16 }
    let s := closing (received f none) member
    AtVerdict (received f none) s ∧ s.round.inFlight = none ∧ s.life = .member ∧ s.replica.tag = some f.tag ∧
      comparedKind f.body = true ∧ 1 ≤ (f.sequence - s.replica.sequence).toNat ∧
      (f.sequence - s.replica.sequence).toNat ≤ 32767 ∧ ∀ i : StationId, noMarks[i] ≠ .veto := by decide +kernel

/-- 04 section 4.6: a member accepts its own EVICT, with a damaged lock word that no part of it reads. -/
theorem meets_StaleMissedAndEvictedStationsExcludeThemselves_evicted :
    let f := frame 6 (.evict 1)
    let s := { closing (received f none) member with ecc := queue63 .uncorrectable }
    AtVerdict (received f none) s ∧ s.round.inFlight = none ∧ s.life = .member ∧ s.replica.tag = some f.tag ∧
      f.body = .evict s.straps.id ∧ f.sequence = s.replica.sequence ∧ s.replica.roster[f.sender] = .full ∧
      Unmarked noMarks ∧ s.ecc.roster = .good ∧
      shows (exec (.verdictWindowClose noMarks) s) (fun t => (t.exclusionReason, t.fault)) =
        some (some .evicted, some { kind := .evicted, sequence := 5, sender := some 6 }) := by decide +kernel

theorem meets_HigherGroupExcludesTheStation :
    let f : Frame := { frame 3 (.beacon .ms4) with tag := { founder := 1, count := 3 } }
    let s := closing (received f none) member
    AtVerdict (received f none) s ∧ s.round.inFlight = none ∧ comparedKind f.body = true ∧ f.tag ≠ tag12 ∧
      (∀ i : StationId, (slot 6 .stale)[i] ≠ .veto) ∧ s.life = .member ∧ s.replica.tag = some tag12 ∧
      ranksHigher f.tag tag12 = true ∧ ranksHigher { founder := 2, count := 9 } tag12 = false := by decide +kernel

theorem meets_AcceptedStopHalts :
    let f : Frame := { frame 3 (.stop .host) with tag := { founder := 3, count := 0 } }
    let s := closing (received f none) (station .listening)
    AtVerdict (received f none) s ∧ s.round.inFlight = none ∧ s.life ≠ .off ∧ Unmarked noMarks ∧ s.life ≠ .halted ∧
      (closing (receivedIn true f none) (station .halted)).life = .halted := by decide +kernel

theorem meets_AcceptedStopHalts_own :
    let fl := flight .stop (frame 1 (.stop .fault))
    let s := sent fl { member with pendingStop := some .fault }
    AtVerdict (received fl.frame none) s ∧ s.round.inFlight = some fl ∧ fl.offer.source = .stop ∧ fl.discarded = false ∧
      s.life ≠ .halted ∧ (sent fl { station .halted with pendingStop := some .fault }).life = .halted ∧
      shows (exec (.verdictWindowClose noMarks) (sent fl { station .halted with pendingStop := some .fault }))
        (fun t => (t.life, t.pendingStop)) = some (.halted, none) := by decide +kernel

/-- The own FAULT STOP in flight, misread in HALTED. -/
def misreadStop (life : Life) : State :=
  let s := sent (flight .stop (frame 1 (.stop .fault))) { station life with pendingStop := some .fault }
  { s with round := { s.round with reception := some (misreadIn true none none false) } }

theorem meets_AcceptedStopHalts_misread :
    let fl := flight .stop (frame 1 (.stop .fault))
    AtVerdict (misreadIn true none none false) (misreadStop .listening) ∧ (misreadStop .listening).round.inFlight = some fl ∧
      fl.frame.body = .stop .fault ∧ fl.offer.source = .stop ∧ fl.discarded = false ∧
      AtVerdict (misreadIn true none none false) (misreadStop .halted) ∧ (misreadStop .halted).life = .halted := by decide +kernel

/-- R180: RESTART while the own FAULT STOP, misread in HALTED, waits for its close: the station is in LISTENING, and HALTED again
at the clean close. -/
theorem test_restart_before_the_close_of_a_misread_stop :
    shows (exec .restart (atPort [] (misreadStop .halted))) State.life = some .listening ∧
      (match exec .restart (atPort [] (misreadStop .halted)) with
        | .next s => shows (exec (.verdictWindowClose noMarks) s) fun t => (t.life, t.round.pointer)
        | _ => none) = some (.halted, none) := by decide +kernel

theorem meets_JoinerOpensItsJoinAndReceivesTheCopy :
    let fl := flight .entry (frame 1 (.entry .ms8))
    let s := sent fl enterer
    AtVerdict (received fl.frame none) s ∧ s.round.inFlight = some fl ∧
      fl.offer = { source := .entry, body := .entry .ms8 } ∧ fl.discarded = false ∧ s.life = .entering ∧
      s.join.target = some fl.frame.tag ∧ s.join.leaveAtEntryClose = false ∧ Unmarked noMarks := by decide +kernel

theorem meets_JoinerOpensItsJoinAndReceivesTheCopy_copy :
    let c : RosterCopy := { roster := fullAt [3], interval := .ms8, cut := 5 }
    let f := frame 3 (.copyRoster 1 c)
    let g := frame 3 (.copyLock 63 lock17)
    AtVerdict (received f none) (closing (received f none) (joiner .entering)) ∧ (joiner .entering).join.target = some f.tag ∧
      (joiner .entering).join.abort = none ∧ (joiner .entering).join.isOpen = true ∧ (joiner .entering).life = .entering ∧
      AtVerdict (received g none) (closing (received g none) (joiner .copying)) ∧ (joiner .copying).life = .copying ∧
      (joiner .copying).join.source = some g.sender ∧ (joiner .copying).join.rosterCopy = some c := by decide +kernel

theorem meets_AdmissionInstallsTheCopy :
    let f := frame 3 (.admission 1 1)
    let base := joiner .copying
    let s := closing (received f none)
      { base with join := { base.join with lockCopies := put base.join.lockCopies 17 (some lock17) } }
    AtVerdict (received f none) s ∧ s.round.inFlight = none ∧ f.body = .admission s.straps.id 1 ∧ s.join.target = some f.tag ∧
      s.life = .copying ∧ s.join.abort = none ∧
      s.join.rosterCopy = some { roster := fullAt [3], interval := .ms8, cut := 5 } ∧ locksRecorded s = 1 ∧
      (5 : Half) + s.join.catchUpCount = f.sequence ∧ Unmarked noMarks ∧ AllGood (installReads s) s.ecc ∧
      s.lateDamage = .sound := by decide +kernel

/-- Lock 63 was named by no COPY_LOCK: install sets it without reading it, and old damage in its words is gone (R27, R181). -/
theorem test_install_overwrites_damage :
    let f := frame 3 (.admission 1 1)
    let base := joiner .copying
    let s := closing (received f none)
      { base with
        join := { base.join with lockCopies := put base.join.lockCopies 17 (some lock17) }, ecc := queue63 .uncorrectable }
    AllGood (installReads s) s.ecc ∧
      shows (exec (.verdictWindowClose noMarks) s) (fun t => (t.life, t.ecc)) = some (.member, StoreCondition.sound) := by
  decide +kernel

/-- A catch-up frame reads a word damaged after install wrote it: the fault carries that frame's sender. -/
theorem meets_AdmissionInstallsTheCopy_damaged :
    let f := { frame 3 (.admission 1 0) with sequence := 6 }
    let g := frame 6 (.yield 63 0)
    let base := { joiner .copying with
      join := { (joiner .copying).join with
        catchUp := [g], catchUpCount := 1, rosterCopy := some { roster := fullAt [3, 6], interval := .ms8, cut := 5 } } }
    let s := { closing (received f none) base with lateDamage := queue63 .uncorrectable }
    let copied : Replica :=
      { tag := some f.tag, interval := some .ms8, sequence := 5, join := some { joiner := 1, source := 3 },
        roster := put (fullAt [3, 6]) 1 .pending, locks := Vector.ofFn fun k => (s.join.lockCopies[k]).getD .founding }
    AtVerdict (received f none) s ∧ locksRecorded s = 0 ∧ (5 : Half) + s.join.catchUpCount = f.sequence ∧
      s.join.catchUp = g :: [] ∧ AllGood (installReads s) s.ecc ∧ .queue 63 ∈ applicationReads s.straps.id g copied ∧
      conditionOf (.queue 63) s.lateDamage = .uncorrectable ∧
      (∀ w ∈ applicationReads s.straps.id g copied, conditionOf w s.lateDamage ≠ .correctable) ∧
      shows (exec (.verdictWindowClose noMarks) s) (fun t => (t.life, t.fault)) =
        some (.excluded, some { kind := .uncorrectable, sequence := 5, sender := some 6 }) := by decide +kernel

theorem meets_AdmissionInstallsTheCopy_install :
    let s := { joiner .copying with ecc := { StoreCondition.sound with roster := .uncorrectable } }
    .roster ∈ installReads s ∧ conditionOf .roster s.ecc = .uncorrectable ∧
      ∀ w ∈ installReads s, conditionOf w s.ecc ≠ .correctable := by decide +kernel

theorem meets_AdmissionInstallsTheCopy_correctable :
    let s := { joiner .copying with ecc := { StoreCondition.sound with join := .correctable } }
    .join ∈ installReads s ∧ conditionOf .join s.ecc = .correctable ∧
      ∀ v ∈ installReads s, v ≠ .join → conditionOf v s.ecc = .good := by decide +kernel

/-- The own frame of a station, misread for the fourth time. -/
def misreadAt (mark : Option VerdictMark) (source : Source) (s : State) : State :=
  { s with round := { s.round with
      phase := .verdict, reception := some (misreadIn (s.life == .halted) none mark true), mismatches := 4,
      inFlight := some (flight source (frame 1 (.stop .fault))) } }

theorem meets_ReadbackLimitMeansADuplicateId :
    let r := { misreadIn false none (some .veto) true with vetoLine2 := true }
    let s := { misreadAt (some .veto) .stop member with
      round := { (misreadAt (some .veto) .stop member).round with reception := some r } }
    AtVerdict r s ∧ s.round.inFlight = some (flight .stop (frame 1 (.stop .fault))) ∧ s.ecc.roster = .good ∧
      (∀ i : StationId, (slot 1 .veto)[i] ≠ .stale) ∧ (∃ i : StationId, (slot 1 .veto)[i] = .veto) ∧
      s.round.soloVetoes + 1 < 4 ∧ s.life = .member := by decide +kernel

theorem meets_ReadbackLimitMeansADuplicateId_halted :
    let s := misreadAt none .stop (station .halted)
    AtVerdict { misreadIn true none none true with vetoLine2 := false } s ∧ s.life = .halted ∧
      (flight .stop (frame 1 (.stop .fault))).offer.source = .stop := by decide +kernel

/-- A station in HALTED records no count: 0, though its frozen count is 5. -/
theorem test_halted_duplicate_count :
    shows (exec (.readbackMismatchLimit noMarks) (misreadAt none .stop { station .halted with replica := member.replica }))
        (fun t => t.fault) = some (some { kind := .duplicateId, sequence := 0, sender := none }) := by decide +kernel

theorem meets_ReadbackLimitMeansADuplicateId_sender :
    let r := { received (frame 1 .leave) (some .veto) with duplicate := true }
    AtVerdict r (closing r member) ∧ (closing r member).round.inFlight = none ∧
      (slot 1 .veto)[(closing r member).straps.id] = .veto ∧ (closing r (station .excluded)).life = .excluded ∧
      (closing r (station .halted)).life = .halted := by decide +kernel

theorem meets_SoloVetoLimitSuppressesAndLeaves :
    let s := { closing (unreceived true) member with
      round := { (closing (unreceived true) member).round with soloVetoes := 3 } }
    AtVerdict (unreceived true) s ∧ s.round.inFlight = none ∧ s.round.won = false ∧ s.round.soloVetoes = 3 ∧
      (slot 1 .veto)[s.straps.id] = .veto ∧ (∀ i : StationId, i ≠ s.straps.id → (slot 1 .veto)[i] ≠ .veto) ∧
      s.life = .member := by decide +kernel

theorem meets_SoloVetoLimitSuppressesAndLeaves_joiner :
    (joiner .copying).join.isOpen = true ∧ (joiner .copying).life = .copying ∧ enterer.join.isOpen = false ∧
      enterer.life = .entering ∧ (station .excluded).life = .excluded ∧ (station .listening).life = .listening ∧
      (station .halted).life = .halted := by decide +kernel

/-- A station with this host frame in flight, at the head of its queue under its ticket. -/
def sentHost (f : HostFrame) (s : State) : State :=
  { sent (flight (.host (hostTicket f)) (frame 1 (hostBody f))) s with
    hostQueue := [f], hostRetry := { attempts := 7, busy := 15 },
    tickets := put (Vector.replicate 16 none) (hostTicket f) (some { kind := .note, place := .queued }) }

theorem meets_AttemptLimitDropsTheHead :
    let s := sentHost (.note 6 2 [9] 15) member
    let fl := flight (.host 15) (frame 1 (.note 6 2 [9]))
    AtVerdict (received fl.frame none) s ∧ s.round.inFlight = some fl ∧ fl.offer.source = .host 15 ∧ fl.discarded = false ∧
      s.life = .member ∧ s.hostQueue = .note 6 2 [9] 15 :: [] ∧ s.hostRetry.attempts = 7 ∧
      s.tickets[(15 : TicketId)] = some { kind := .note, place := .queued } ∧ s.replica.tag = some fl.frame.tag ∧
      s.ecc.roster = .good ∧ (∀ i : StationId, (slot 0 .veto)[i] ≠ .stale) ∧ (∃ i : StationId, (slot 0 .veto)[i] = .veto) ∧
      s.replica.roster[(6 : StationId)] = .full ∧ noMarks[(6 : StationId)] = .empty ∧
      shows (exec (.attemptLimitDrop noMarks) s) (fun t => (t.records, t.hostQueue)) =
        some ([.undelivered 15 6 .noAnswer], []) := by decide +kernel

theorem meets_CopyFrameIsDroppedAtTheLimit :
    let fl := flight .copy (frame 1 (copyBody copying (.lock 63)))
    let s := { sent fl member with copy := some copying, copyRetry := { attempts := 7, busy := 0 } }
    AtVerdict (received fl.frame none) s ∧ s.round.inFlight = some fl ∧ fl.offer.source = .copy ∧ fl.discarded = false ∧
      s.life = .member ∧ s.replica.tag = some fl.frame.tag ∧ copying.frames = .lock 63 :: [.admission 1] ∧
      s.copyRetry.attempts = 7 ∧ (∃ i : StationId, (slot 4 .veto)[i] = .veto) ∧
      ∀ i : StationId, (slot 4 .veto)[i] ≠ .stale := by decide +kernel

theorem meets_BusyNoteWaitsAndIsDroppedAtTheLimit :
    let s := sentHost (.note 6 2 [9] 0) member
    let fl := flight (.host 0) (frame 1 (.note 6 2 [9]))
    AtVerdict (received fl.frame none) s ∧ s.round.inFlight = some fl ∧ s.life = .member ∧
      s.hostQueue = .note 6 2 [9] 0 :: [] ∧ s.tickets[(0 : TicketId)] = some { kind := .note, place := .queued } ∧
      s.replica.tag = some fl.frame.tag ∧ s.ecc.roster = .good ∧ s.replica.roster[(6 : StationId)] = .full ∧
      (slot 6 .busy)[(6 : StationId)] = .busy ∧ (∀ i : StationId, (slot 6 .busy)[i] ≠ .veto ∧ (slot 6 .busy)[i] ≠ .stale) ∧
      s.hostRetry.busy = 15 := by decide +kernel

theorem meets_MemberTimersAndLeasesRunOut :
    let s := { member with
      monitor := { RosterMonitor.stopped with beaconTimer := some 8, silence := put RosterMonitor.stopped.silence 15 (.running 24) },
      leases := [.running 63 1] }
    s.monitor.beaconTimer = some 8 ∧ s.monitor.silence[(15 : StationId)] = .running 24 ∧ .running 63 1 ∈ s.leases ∧
      ({ s with busyWait := some 8 } : State).busyWait = some 8 := by decide +kernel

/-- A listening station with quiet window and backoff timer running and a candidate. -/
def listener : State :=
  { station .listening with
    listening := { quiet := some 32, backoff := some 16, candidate := some { tag := tag12, tracked := 5 } } }

theorem meets_QuietWindowFoundsAGroup : listener.life = .listening ∧ listener.listening.quiet = some 32 := by decide +kernel

/-- A frame of the candidate's group, one of a higher-ranking and one of a lower-ranking group, and an ENTRY. -/
theorem meets_ListenerFollowsAndTargetsItsCandidate_close :
    let f := frame 3 .leave
    let s := closing (received f none) listener
    AtVerdict (received f none) s ∧ s.round.inFlight = none ∧ s.life = .listening ∧ comparedKind f.body = true ∧
      (∀ i : StationId, noMarks[i] ≠ .veto) ∧ verdictOf f.body noMarks = .accepted ∧ s.listening.backoff ≠ none ∧
      (∀ i : StationId, (slot 6 .stale)[i] ≠ .veto) ∧ verdictOf f.body (slot 6 .stale) ≠ .accepted ∧
      ranksHigher { founder := 0, count := 0 } tag12 = true ∧ ranksHigher { founder := 1, count := 1 } tag12 = false ∧
      isEntry (.entry .ms8) = true ∧ (station .listening).listening.backoff = none ∧
      shows (exec (.verdictWindowClose noMarks) s) (fun t => t.listening.candidate) =
        some (some { tag := tag12, tracked := 6 }) := by decide +kernel

theorem meets_ListenerFollowsAndTargetsItsCandidate :
    listener.life = .listening ∧ listener.listening.backoff = some 16 ∧
      listener.listening.candidate = some { tag := tag12, tracked := 5 } := by decide +kernel

theorem meets_JoinTimersEndTheJoin :
    (joiner .entering).pendingLeave ≠ some .soloVeto ∧ (joiner .entering).life = .entering ∧
      (joiner .entering).join.joinTimer = some 32 ∧ (joiner .copying).life = .copying ∧
      (joiner .copying).join.stallTimer = some 128 ∧ (joiner .copying).join.isOpen = true := by decide +kernel

theorem meets_RejoinTimerEntersListening :
    ({ station .excluded with rejoin := some 16 } : State).life = .excluded ∧
      ({ station .excluded with rejoin := some 16 } : State).rejoin = some 16 := by decide +kernel

/-- A replica of members 1, 3, 5, 6, 8 and 10 with lock 17 of 11 section 11.1. -/
def replica17 : Replica :=
  { member.replica with roster := fullAt [0, 1, 3, 5, 6, 8, 10], locks := put (Vector.replicate 64 .founding) 17 lock17 }

theorem meets_ClaimFollowsTheChecks :
    replica17.roster[(6 : StationId)] = .full ∧ has replica17.locks[(17 : LockId)].holders 3 = true ∧
      (∃ e ∈ replica17.locks[(17 : LockId)].queue, e.station = 5) ∧
      has replica17.locks[(17 : LockId)].holders 6 = false ∧ ¬(∃ e ∈ replica17.locks[(17 : LockId)].queue, e.station = 6) ∧
      replica17.locks[(17 : LockId)].queue ≠ [] ∧ entriesOf 6 replica17.locks < 4 ∧ poolInUse replica17.locks < 48 ∧
      lawfulLock replica17.locks[(17 : LockId)] = true ∧
      replica17.locks[(17 : LockId)].state = .sole ∧ replica17.locks[(63 : LockId)].queue = [] ∧
      replica17.locks[(63 : LockId)].state = .free := by decide +kernel

/-- Lock 20 and those after it, `n` locks in all, SOLE at station 3 with a claim of station 6 waiting on each. -/
def waitingOn (n : Nat) : Locks :=
  Vector.ofFn fun k => if 20 ≤ k.val ∧ k.val < 20 + n then
      { state := .sole, holders := addTo noIds 3, generation := 1,
        queue := [{ station := 6, mode := .sole, cls := .standard, ticket := 0 }] }
    else .founding

theorem meets_ClaimFollowsTheChecks_quota :
    4 ≤ entriesOf 6 (waitingOn 4) ∧ entriesOf 6 (waitingOn 3) < 4 ∧
      (waitingOn 4)[(19 : LockId)].state = .free := by decide +kernel

theorem meets_ClaimFollowsTheChecks_pool :
    48 ≤ poolInUse (Vector.replicate 64 lock17) ∧ entriesOf 6 (Vector.replicate 64 lock17) < 4 := by decide +kernel

/-- 01 section 1.5: a HIGH SHARED claim on a SHARED lock whose queue is headed by a STANDARD SOLE claim is granted at once. -/
theorem test_high_shared_claim_granted_at_once :
    let r : LockRecord :=
      { state := .shared, holders := addTo noIds 3, generation := 9,
        queue := [{ station := 5, mode := .sole, cls := .standard, ticket := 0 }] }
    (applyClaim 6 17 .shared .high .wait 2 (put (Vector.replicate 64 .founding) 17 r)).2 =
      [.waits 6 2 17, .granted 6 2 17 10] := by decide +kernel

/-- A batch of SHARED heads on a FREE lock, a SOLE head on a FREE lock, and a SOLE lock. -/
theorem meets_PromotionGrantsHeadsInOrder :
    lawfulLock (removeHolder 3 lock17) = true ∧ lawfulLock lock17 = true ∧ lock17.state = .sole ∧
      lawfulLock { removeHolder 3 lock17 with queue := [{ station := 0, mode := .sole, cls := .standard, ticket := 2 }] } =
        true := by decide +kernel

theorem meets_YieldRecallAndExpireFollowTheTable :
    let r := replica17.locks[(17 : LockId)]
    replica17.roster[(3 : StationId)] = .full ∧ has r.holders 3 = true ∧ has r.holders 5 = false ∧
      r.queue = [] ++ { station := 5, mode := .shared, cls := .high, ticket := 1 } :: r.queue.tail ∧
      (∀ e ∈ r.queue, e.station ≠ 5 ∨ e.ticket ≠ 2) := by decide +kernel

theorem meets_OnlyFullSendersChangeTheTable : replica17.roster[(15 : StationId)] ≠ .full := by decide +kernel

theorem meets_DepartedStationIsReleased :
    replica17.roster[(3 : StationId)] = .full ∧ replica17.roster[(1 : StationId)] = .full ∧ LocksLawful replica17.locks := by
  decide +kernel

/-- The four standings an ENTRY can settle: ABSENT, PENDING, FULL, and FULL as the copy source of a join. -/
theorem meets_EntryAndAdmitChangeTheRoster :
    let r := { replica17 with roster := put (fullAt [3, 5]) 15 .pending, join := some { joiner := 15, source := 3 } }
    r.roster[(0 : StationId)] = .absent ∧ r.roster[(15 : StationId)] = .pending ∧ r.roster[(5 : StationId)] = .full ∧
      r.roster[(3 : StationId)] = .full ∧ (∀ y : StationId, y < 3 → r.roster[y] ≠ .full) ∧
      (put (put r.roster 3 .absent) 15 .absent)[(5 : StationId)] = .full ∧
      (∀ y : StationId, y < 5 → (put (put r.roster 3 .absent) 15 .absent)[y] ≠ .full) ∧
      r.interval = some .ms8 ∧ r.interval ≠ some .ms4 ∧ r.join ≠ none ∧ (∀ j, r.join = some j → j.source ≠ 5) := by
  simp only [Option.some.injEq, forall_eq']
  decide +kernel

/-- 05 section 5.3: station 3, FULL and copy source, enters again: it is released, its joiner 15 is dropped, and it is PENDING. -/
theorem test_entry_of_a_full_copy_source :
    let r := { replica17 with roster := put (fullAt [3, 5]) 15 .pending, join := some { joiner := 15, source := 3 } }
    let a := applyFrame (frame 3 (.entry .ms8)) r
    a.replica.roster = put (fullAt [5]) 3 .pending ∧ a.replica.join = some { joiner := 3, source := 5 } ∧
      has a.replica.locks[(17 : LockId)].holders 3 = false ∧ a.entry = some (.opened 5 3) := by decide +kernel

theorem meets_ApplicationKeepsReplicaLaws : ReplicaLaws replica17 := by
  constructor
  case join => exact ⟨by decide +kernel, nofun⟩
  all_goals decide +kernel

theorem meets_MembersStayInAgreement :
    let f := frame 6 (.yield 17 0)
    let s₁ := closing (received f none) member
    let s₂ := { closing (received f none) member with straps := { id := 3, rate := true }, hostQueue := [.yield 4 0] }
    s₁.replica = s₂.replica ∧ s₁.life = .member ∧ s₂.life = .member ∧ AtVerdict (received f none) s₁ ∧
      AtVerdict (received f none) s₂ ∧ s₁.round.inFlight = none ∧ s₂.round.inFlight = none ∧
      s₁.replica.tag = some f.tag ∧ isTable f.body = true ∧ f.sequence = s₁.replica.sequence ∧ Unmarked noMarks ∧
      f.body ≠ .evict s₁.straps.id ∧ f.body ≠ .evict s₂.straps.id ∧ s₁.ecc = .sound ∧ s₂.ecc = .sound := by decide +kernel

theorem meets_MembersStayInAgreement_entry :
    let f : Frame := { frame 6 (.entry .ms8) with sequence := 0 }
    isEntry f.body = true ∧ isTable f.body = true ∧ f.sequence ≠ member.replica.sequence ∧ f.body ≠ .evict 1 := by decide +kernel

/-- A frame at the longest COPY_LOCK's bytes: the right side of the equivalence. -/
theorem meets_FramesAndTheirBytesAgree :
    frameChecks (frame 3 (.copyLock 17 lock17)) = true ∧
      frameOf (frameBytes (frame 3 (.copyLock 17 lock17))) = some (frame 3 (.copyLock 17 lock17)) := by decide +kernel

/-- The invariants hold at a member that is a copy source with notes and leases, and a step from it has a next state. -/
theorem meets_StepsKeepTheBlocksInAgreement :
    BlocksAgree { member with pending := [.leaseCountOut 4], leases := [.running 4 1] } ∧
      shows (step { member with pending := [.leaseCountOut 4], leases := [.running 4 1] }) State.leases =
        some [.countedOut 4] := by
  refine ⟨?_, by decide +kernel⟩
  constructor <;> decide +kernel

theorem meets_StepsKeepTablesAndCapacities :
    TablesLawful { member with pending := [.next] } ∧ WithinCapacity { member with pending := [.next] } := by
  constructor
  · exact
      { replica := by decide +kernel
        shadow := fun _ absent => by cases absent
        received := by decide +kernel
        frame := fun _ _ absent => by cases absent }
  · constructor <;> decide +kernel

end Sys2Proof.Tests
end

section
/-!
SUPPORT. The winner of a request window (R56): the count from the pointer orders the slots by their distance above it, so the
two searches of `winner` find the nearest EXPEDITED and the nearest ORDINARY slot; and what a station with and without a win
does when the window closes with a request.
-/

namespace Sys2Proof.Machine

/-! ### The count from the pointer (R56) -/

theorem countFrom_eq_ofFn (p : StationId) : countFrom p = List.ofFn fun i => p + i := by
  rw [countFrom, allIds, List.ofFn_eq_map]

theorem mem_countFrom (p i : StationId) : i ∈ countFrom p := by
  rw [countFrom_eq_ofFn, List.mem_ofFn]
  exact ⟨i - p, add_sub_cancel p i⟩

/-- A search in the count finds the hit nearest above the pointer: the ID at place `k` of the count is `p + k`. -/
theorem find?_countFrom_eq_some_iff {p i : StationId} {hit : StationId → Bool} :
    (countFrom p).find? hit = some i ↔ hit i = true ∧ ∀ j, hit j = true → i - p ≤ j - p := by
  rw [countFrom_eq_ofFn, List.find?_ofFn_eq_some]
  refine and_congr_right fun _ => ⟨?_, fun nearest => ⟨i - p, add_sub_cancel p i, fun k hk hit_k => ?_⟩⟩
  · rintro ⟨k, rfl, no_hit_before⟩ j hit_j
    rw [add_sub_cancel_left]
    by_contra j_before
    exact no_hit_before (j - p) (not_le.mp j_before) (by rwa [add_sub_cancel])
  · have not_before := nearest (p + k) hit_k
    rw [add_sub_cancel_left] at not_before
    exact not_lt.mpr not_before hk

theorem find?_countFrom_eq_none_iff {p : StationId} {hit : StationId → Bool} :
    (countFrom p).find? hit = none ↔ ∀ j, hit j ≠ true := by
  simp only [List.find?_eq_none, mem_countFrom, forall_const]

/-! ### The winner -/

/-- The winner stands in one of the two classes, and in its class it is nearest above the pointer. -/
theorem winner_eq_some_iff {p i : StationId} {slots : RequestSlots} :
    winner p slots = some i ↔
      (slots[i] = .expedited ∧ ∀ j : StationId, slots[j] = .expedited → i - p ≤ j - p) ∨
      ((∀ j : StationId, slots[j] ≠ .expedited) ∧ slots[i] = .ordinary ∧
        ∀ j : StationId, slots[j] = .ordinary → i - p ≤ j - p) := by
  simp only [winner, Option.or_eq_some_iff, find?_countFrom_eq_some_iff, find?_countFrom_eq_none_iff, beq_iff_eq, ne_eq]

theorem winner_isSome {p i : StationId} {slots : RequestSlots} (request : slots[i] ≠ .empty) :
    (winner p slots).isSome = true := by
  rw [winner, Option.isSome_or, Bool.or_eq_true, List.find?_isSome, List.find?_isSome]
  cases mark : slots[i] with
  | empty => exact absurd mark request
  | expedited => exact .inl ⟨i, mem_countFrom p i, beq_iff_eq.mpr mark⟩
  | ordinary => exact .inr ⟨i, mem_countFrom p i, beq_iff_eq.mpr mark⟩

theorem anyRequest_iff {slots : RequestSlots} : anyRequest slots = true ↔ ∃ i : StationId, slots[i] ≠ .empty := by
  simp only [anyRequest, allIds, List.any_eq_true, List.mem_finRange, true_and, bne_iff_ne]

/-! ### The close of a window with a request (R56, R57) -/

section Close

variable {s : State} {slots : RequestSlots}

theorem wins_iff : wins slots s = true ↔ ∃ p, s.round.pointer = some p ∧ winner p slots = some s.straps.id := by
  unfold wins
  cases s.round.pointer with
  | none => simp
  | some p => simp [self]

theorem wins_eq_false_iff :
    wins slots s = false ↔ ∀ p, s.round.pointer = some p → winner p slots ≠ some s.straps.id := by
  rw [← Bool.not_eq_true, wins_iff]
  push Not
  rfl

/-- The frame a station transmits for an offer, as it goes on the line. -/
def inFlightFor (o : Offer) (s : State) : InFlight :=
  { offer := o, frame := frameFor o s, bytes := frameBytes (frameFor o s), discarded := false }

theorem transmission_of_offered {o : Offer} (chosen : s.round.chosen = some o) (offered : stillOffered o s = true) :
    transmission s = some (inFlightFor o s) := by
  simp only [transmission, chosen, offered, if_true, inFlightFor]

theorem exec_requestWindowClose (request : s.round.phase = .request) (marked : ∃ i : StationId, slots[i] ≠ .empty) :
    exec (.requestWindowClose slots) s =
      .next { s with round := { s.round with
        phase := .frame, won := wins slots s, inFlight := if wins slots s then transmission s else none } } := by
  change Host.Outcome.next (closeRequestWindow slots s) = _
  rw [closeRequestWindow, if_pos request, if_pos (anyRequest_iff.mpr marked)]

theorem exec_requestWindowClose_lost (request : s.round.phase = .request) (marked : ∃ i : StationId, slots[i] ≠ .empty)
    (lost : ∀ p, s.round.pointer = some p → winner p slots ≠ some s.straps.id) :
    exec (.requestWindowClose slots) s =
      .next { s with round := { s.round with phase := .frame, won := false, inFlight := none } } := by
  rw [exec_requestWindowClose request marked, wins_eq_false_iff.mpr lost, if_neg Bool.false_ne_true]

theorem exec_requestWindowClose_won {p : StationId} {o : Offer} (request : s.round.phase = .request)
    (marked : ∃ i : StationId, slots[i] ≠ .empty) (pointer : s.round.pointer = some p)
    (won : winner p slots = some s.straps.id) (chosen : s.round.chosen = some o) (offered : stillOffered o s = true) :
    exec (.requestWindowClose slots) s =
      .next { s with round := { s.round with phase := .frame, won := true, inFlight := some (inFlightFor o s) } } := by
  rw [exec_requestWindowClose request marked, wins_iff.mpr ⟨p, pointer, won⟩, if_pos rfl,
    transmission_of_offered chosen offered]

end Close

/-- Settles O24: the count orders the slots by distance above the pointer, and the close acts on `wins` alone. -/
theorem winnerIsFirstInTheCount : Obligations.WinnerIsFirstInTheCount := by
  unfold Obligations.WinnerIsFirstInTheCount
  intro p slots
  refine ⟨fun i => winner_eq_some_iff, fun ⟨i, request⟩ => winner_isSome request, fun s request marked => ⟨?_, ?_⟩⟩
  · intro lost
    refine exec_requestWindowClose_lost request marked fun q pointer => ?_
    obtain unknown | ⟨known, other⟩ := lost
    · simp [unknown] at pointer
    · obtain rfl : p = q := Option.some.inj (known.symm.trans pointer)
      exact other
  · intro o pointer won chosen offered
    exact ⟨inFlightFor o s, rfl, rfl, rfl, rfl, exec_requestWindowClose_won request marked pointer won chosen offered⟩

end Sys2Proof.Machine
end

section
/-!
SUPPORT. The rank of group tags (R101): the relation on founder and count, its trichotomy, and the station's own tag.
-/

namespace Sys2Proof.Machine

/-! ### The rank is a strict total order on tags (R101) -/

theorem ranksHigher_iff {a b : GroupTag} :
    ranksHigher a b = true ↔
      a.founder.val < b.founder.val ∨ (a.founder = b.founder ∧ b.count.toNat < a.count.toNat) := by
  simp only [ranksHigher, Bool.or_eq_true, Bool.and_eq_true, decide_eq_true_eq, beq_iff_eq, Fin.lt_def]

theorem GroupTag.eq_of_founder_eq_of_count_eq {a b : GroupTag} (founder : a.founder = b.founder)
    (count : a.count = b.count) : a = b :=
  congrArg₂ GroupTag.mk founder count

theorem ranksHigher_self (a : GroupTag) : ranksHigher a a = false := by
  rw [← Bool.not_eq_true, ranksHigher_iff]
  rintro (lower | ⟨-, higher⟩)
  · exact lt_irrefl _ lower
  · exact lt_irrefl _ higher

theorem ranksHigher_asymm {a b : GroupTag} (higher : ranksHigher a b = true) : ranksHigher b a = false := by
  rw [← Bool.not_eq_true, ranksHigher_iff]
  obtain lower | ⟨founder, count⟩ := ranksHigher_iff.mp higher
  · rintro (lower' | ⟨founder', -⟩)
    · exact lt_asymm lower lower'
    · exact lower.ne (congrArg Fin.val founder'.symm)
  · rintro (lower' | ⟨-, count'⟩)
    · exact lower'.ne (congrArg Fin.val founder.symm)
    · exact lt_asymm count count'

/-- The founders decide, and between tags of one founder the counts; where neither does, the tags are the same. -/
theorem ranksHigher_or_of_ne {a b : GroupTag} (different : a ≠ b) :
    ranksHigher a b = true ∨ ranksHigher b a = true := by
  rw [ranksHigher_iff, ranksHigher_iff]
  obtain lower | founder | lower := lt_trichotomy a.founder b.founder
  · exact .inl (.inl lower)
  · obtain less | count | more := lt_trichotomy a.count.toNat b.count.toNat
    · exact .inr (.inr ⟨founder.symm, less⟩)
    · exact absurd (GroupTag.eq_of_founder_eq_of_count_eq founder (BitVec.eq_of_toNat_eq count)) different
    · exact .inl (.inr ⟨founder, more⟩)
  · exact .inr (.inl lower)

/-- Of two different tags exactly one ranks higher. -/
theorem ranksHigher_eq_not_of_ne {a b : GroupTag} (different : a ≠ b) : ranksHigher a b = !ranksHigher b a := by
  obtain higher | higher := ranksHigher_or_of_ne different
  · rw [higher, ranksHigher_asymm higher, Bool.not_false]
  · rw [higher, ranksHigher_asymm higher, Bool.not_true]

/-! ### The station's own tag and its target (R46) -/

section Foreign

variable {f : Frame} {s : State}

theorem foreign_eq_of_member (life : s.life = .member) : foreign f s = (s.replica.tag != some f.tag) := by
  rw [foreign, life]

theorem foreign_eq_of_joiner (life : s.life = .entering ∨ s.life = .copying) :
    foreign f s = (s.join.target != some f.tag) := by
  obtain life | life := life <;> rw [foreign, life]

theorem not_foreign_of_own_tag (life : s.life = .member) (own : s.replica.tag = some f.tag) : foreign f s = false := by
  rw [foreign_eq_of_member life, own, bne_self_eq_false]

theorem not_foreign_of_target_tag (life : s.life = .entering ∨ s.life = .copying)
    (target : s.join.target = some f.tag) : foreign f s = false := by
  rw [foreign_eq_of_joiner life, target, bne_self_eq_false]

end Foreign

/-- Settles O29: the rank is irreflexive, asymmetric and total, and `foreign` compares with the station's own or target
tag. -/
theorem tagsAreRankedInAFixedOrder : Obligations.TagsAreRankedInAFixedOrder := by
  unfold Obligations.TagsAreRankedInAFixedOrder
  intro a b
  refine ⟨ranksHigher_iff, ranksHigher_eq_not_of_ne, ranksHigher_self a, GroupTag.eq_of_founder_eq_of_count_eq, ?_⟩
  rintro f s rfl
  exact ⟨not_foreign_of_own_tag, not_foreign_of_target_tag⟩

end Sys2Proof.Machine
end

section
/-!
SUPPORT. The fault record and the counters at the host port (R185, R186): what FAULTS shows and what CLEAR_FAULTS leaves.
-/

namespace Sys2Proof.Machine

variable {s : State}

@[simp] theorem faultSenderByte_none : faultSenderByte none = 0xFF := rfl
@[simp] theorem faultSenderByte_some (i : StationId) : faultSenderByte (some i) = BitVec.ofNat 8 i.val := rfl

/-- FAULTS changes the port alone (R186). -/
theorem exec_faults_of_collected (h : Collected [] s) :
    exec .faults s = .next (answered ([0x00] ++ faultBytes s) s) := by
  rw [exec_faults_taken h, takeFaults, answerOk, respond_eq_answered]
  rfl

/-- CLEAR_FAULTS changes the record, the counters and the port (R186). -/
theorem exec_clearFaults_of_collected (h : Collected [] s) :
    exec .clearFaults s = .next (answered [0x00] { s with fault := none, counters := .zero }) := by
  rw [exec_clearFaults_taken h, takeClearFaults, answer, respond_eq_answered]
  rfl

/-- Settles O16: the bytes FAULTS shows are those of the record's three forms, no fault, one without and one with a sender;
CLEAR_FAULTS leaves no fault and the zero counters. -/
theorem faultsAreShownAndCleared : Obligations.FaultsAreShownAndCleared := by
  unfold Obligations.FaultsAreShownAndCleared
  intro s collected
  refine ⟨?_, exec_clearFaults_of_collected collected⟩
  rw [exec_faults_of_collected collected, faultBytes, List.append_assoc]
  cases s.fault with
  | none => rfl
  | some f =>
    cases sender : f.sender with
    | none => simp only [sender, faultSenderByte_none]; rfl
    | some i => simp only [sender, faultSenderByte_some]; rfl

end Sys2Proof.Machine
end

section
/-!
SUPPORT. Promotion (R17, R18): which heads of a queue are granted, what they are told, and what the lock record is afterwards.
-/

namespace Sys2Proof.Machine

variable {k : LockId} {r : LockRecord}

/-- What promotion made of the record `r`: the heads `given` are granted, `rest` is left waiting, `p` is the new record with
what is told. -/
structure Promotion (k : LockId) (r : LockRecord) (given rest : List ClaimEntry) (p : LockRecord × List TableEvent) :
    Prop where
  queue : p.1.queue = rest
  onSole : r.state = .sole → given = []
  soleAlone : ∀ e ∈ given, e.mode = .sole → given = [e] ∧ ∀ x : StationId, has r.holders x = false
  holders : ∀ x : StationId, has p.1.holders x = true ↔ has r.holders x = true ∨ ∃ e ∈ given, e.station = x
  stateKept : given = [] → p.1.state = r.state
  stateGiven : ∀ e ∈ given, p.1.state = lockStateOf e.mode
  generation : p.1.generation = r.generation + BitVec.ofNat 8 given.length
  told :
    p.2 = given.zipIdx.map fun e => .granted e.1.station e.1.ticket k (r.generation + BitVec.ofNat 8 (e.2 + 1))
  agrees : stateAgrees p.1 = true
  blocked : headBlocked p.1 = true

/-- Nothing is granted: the queue is empty or its head cannot be granted. -/
theorem Promotion.none {q : List ClaimEntry} (agrees : stateAgrees r = true)
    (blocked : headBlocked { r with queue := q } = true) : Promotion k r [] q ({ r with queue := q }, []) where
  queue := rfl
  onSole _ := rfl
  soleAlone := by simp
  holders := by simp
  stateKept _ := rfl
  stateGiven := by simp
  generation := by simp
  told := by simp
  agrees := agrees
  blocked := blocked

theorem zipIdx_generations (g : Byte) (given : List ClaimEntry) :
    (given.zipIdx.map fun e => TableEvent.granted e.1.station e.1.ticket k (g + 1 + BitVec.ofNat 8 (e.2 + 1))) =
      (given.zipIdx 1).map fun e => .granted e.1.station e.1.ticket k (g + BitVec.ofNat 8 (e.2 + 1)) := by
  rw [List.zipIdx_succ, List.map_map]
  refine List.map_congr_left fun e _ => ?_
  simp only [Function.comp_apply, BitVec.ofNat_add, TableEvent.granted.injEq, true_and]
  bv_omega

/-- The head is granted and promotion goes on with the rest of the queue. -/
theorem Promotion.cons {e : ClaimEntry} {given rest : List ClaimEntry} {p : LockRecord × List TableEvent}
    (agrees : stateAgrees r = true) (grantable_e : grantable r e.mode = true)
    (h : Promotion k (grant e.station e.mode r) given rest p) :
    Promotion k r (e :: given) rest
      (p.1, .granted e.station e.ticket k (grant e.station e.mode r).generation :: p.2) where
  queue := h.queue
  onSole sole := by rw [not_grantable_of_sole sole agrees] at grantable_e; cases grantable_e
  soleAlone := by
    have held : has (grant e.station e.mode r).holders e.station = true := by simp [has_grant]
    intro a ha sole
    obtain rfl | later := List.mem_cons.1 ha
    · have nobody : ∀ x, has r.holders x = false := (isEmptySet_iff _).1 (by simpa [grantable, sole] using grantable_e)
      exact ⟨by rw [h.onSole (by simp [grant, sole, lockStateOf])], nobody⟩
    · rw [(h.soleAlone a later sole).2 e.station] at held
      cases held
  holders x := by
    rw [h.holders, has_grant]
    simp only [Bool.or_eq_true, decide_eq_true_eq, List.mem_cons, exists_eq_or_imp]
    tauto
  stateKept := by simp
  stateGiven := by
    intro a ha
    obtain rfl | later := List.mem_cons.1 ha
    · cases hg : given with
      | nil => exact h.stateKept hg
      | cons b more =>
        -- a second grant: neither of the two is SOLE
        have hb : b ∈ given := by simp [hg]
        have shared_a : a.mode = .shared := by
          cases mode : a.mode with
          | shared => rfl
          | sole =>
            have := h.onSole (by simp [grant, mode, lockStateOf])
            simp [this] at hb
        have shared_b : b.mode = .shared := by
          cases mode : b.mode with
          | shared => rfl
          | sole =>
            have := (h.soleAlone b hb mode).2 a.station
            simp [has_grant] at this
        rw [h.stateGiven b hb, shared_a, shared_b]
    · exact h.stateGiven a later
  generation := by
    rw [h.generation]
    simp only [grant, List.length_cons, BitVec.ofNat_add]
    bv_omega
  told := by
    rw [List.zipIdx_cons, List.map_cons, h.told]
    exact congrArg _ (zipIdx_generations r.generation given)
  agrees := h.agrees
  blocked := h.blocked

theorem promoteFrom_promotion (k : LockId) (q : List ClaimEntry) (r : LockRecord) (agrees : stateAgrees r = true) :
    ∃ given rest, q = given ++ rest ∧ Promotion k r given rest (promoteFrom k q r) := by
  induction q generalizing r with
  | nil => exact ⟨[], [], rfl, .none agrees rfl⟩
  | cons e q ih =>
    unfold promoteFrom
    split
    · next granted =>
      obtain ⟨given, rest, rfl, h⟩ := ih (grant e.station e.mode r) (grant_agrees granted)
      exact ⟨e :: given, rest, rfl, h.cons agrees granted⟩
    · next refused =>
      exact ⟨[], e :: q, rfl, .none agrees (by simpa [headBlocked, grantable] using refused)⟩

theorem promote_promotion (k : LockId) (agrees : stateAgrees r = true) :
    ∃ given rest, r.queue = given ++ rest ∧ Promotion k r given rest (promote k r) :=
  promoteFrom_promotion k r.queue r agrees

/-- The record stays lawful: who is granted leaves the queue, in which it stood once. -/
theorem Promotion.lawful {given rest : List ClaimEntry} {p : LockRecord × List TableEvent}
    (h : Promotion k r given rest p) (queue : r.queue = given ++ rest) (lawful : lawfulLock r = true) :
    lawfulLock p.1 = true := by
  obtain ⟨-, ordered, distinct, notHeld⟩ := lawfulLock_iff.1 lawful
  rw [queue, List.pairwise_append] at ordered distinct
  refine lawfulLock_iff.2 ⟨h.agrees, h.queue ▸ ordered.2.1, h.queue ▸ distinct.2.1, fun a ha => ?_⟩
  rw [h.queue] at ha
  rw [← Bool.not_eq_true, h.holders]
  rintro (held | ⟨e, he, same⟩)
  · rw [notHeld a (by simp [queue, ha])] at held
    cases held
  · exact distinct.2.2 e he a ha same

theorem stateAgrees_of_lawful (lawful : lawfulLock r = true) : stateAgrees r = true := (lawfulLock_iff.1 lawful).1

theorem promote_lawful (k : LockId) (lawful : lawfulLock r = true) : lawfulLock (promote k r).1 = true := by
  obtain ⟨given, rest, queue, h⟩ := promote_promotion k (stateAgrees_of_lawful lawful)
  exact h.lawful queue lawful

theorem promote_blocked (k : LockId) (agrees : stateAgrees r = true) : headBlocked (promote k r).1 = true := by
  obtain ⟨given, rest, -, h⟩ := promote_promotion k agrees
  exact h.blocked

/-- Promotion takes heads off the queue and adds nothing. -/
theorem promote_queue_sublist (k : LockId) (agrees : stateAgrees r = true) :
    (promote k r).1.queue.Sublist r.queue := by
  obtain ⟨given, rest, queue, h⟩ := promote_promotion k agrees
  rw [h.queue, queue]
  exact List.sublist_append_right given rest

theorem has_promote (k : LockId) (agrees : stateAgrees r = true) {x : StationId}
    (held : has (promote k r).1.holders x = true) : has r.holders x = true ∨ ∃ e ∈ r.queue, e.station = x := by
  obtain ⟨given, rest, queue, h⟩ := promote_promotion k agrees
  obtain held | ⟨e, he, station⟩ := (h.holders x).1 held
  · exact .inl held
  · exact .inr ⟨e, by simp [queue, he], station⟩

theorem has_promote_of_has (k : LockId) (agrees : stateAgrees r = true) {x : StationId}
    (held : has r.holders x = true) : has (promote k r).1.holders x = true := by
  obtain ⟨given, rest, -, h⟩ := promote_promotion k agrees
  exact (h.holders x).2 (.inl held)

/-- On a SOLE lock nothing is granted. -/
theorem promote_of_sole (k : LockId) (sole : r.state = .sole) (agrees : stateAgrees r = true) :
    promote k r = (r, []) := by
  unfold promote
  cases hq : r.queue with
  | nil => simp only [promoteFrom]; rw [← hq]
  | cons e q => simp only [promoteFrom, not_grantable_of_sole sole agrees, Bool.false_eq_true, if_false]; rw [← hq]

theorem lockStateOf_eq (m : Mode) : lockStateOf m = match m with | .sole => .sole | .shared => .shared := by
  cases m <;> rfl

/-- Settles O50: what a promotion made of the record, and the laws it keeps. -/
theorem promotionGrantsHeadsInOrder : Obligations.PromotionGrantsHeadsInOrder := by
  unfold Obligations.PromotionGrantsHeadsInOrder
  intro k r lawful
  obtain ⟨given, rest, queue, h⟩ := promote_promotion k (stateAgrees_of_lawful lawful)
  exact ⟨given, rest, queue, h.queue, h.onSole, h.soleAlone, h.holders, h.stateKept,
    fun e he => (h.stateGiven e he).trans (lockStateOf_eq e.mode), h.generation, h.told, h.lawful queue lawful, h.blocked⟩

end Sys2Proof.Machine
end

section
/-!
SUPPORT. What the operations on one lock record keep (R2, R7, R8, R17): a holder's removal, an entry's removal, an insertion, a
grant, a yield and the release of a departed station, each over a lawful record.
-/

namespace Sys2Proof.Machine

variable {k : LockId} {r : LockRecord} {x : StationId}

theorem standsIn_iff : standsIn x r = true ↔ has r.holders x = true ∨ ∃ e ∈ r.queue, e.station = x := by
  simp [standsIn]

theorem standsIn_eq_false_iff : standsIn x r = false ↔ has r.holders x = false ∧ ∀ e ∈ r.queue, e.station ≠ x := by
  simp [standsIn]

/-! ### Removals -/

theorem removeHolder_of_holder (held : has r.holders x = true) :
    removeHolder x r =
      { r with
        holders := dropFrom r.holders x, state := if isEmptySet (dropFrom r.holders x) then .free else r.state } := by
  simp [removeHolder, held]

/-- The only holder of a SOLE lock leaves nobody behind. -/
theorem sole_removal_empties (sole : r.state = .sole) (agrees : stateAgrees r = true) (held : has r.holders x = true) :
    isEmptySet (dropFrom r.holders x) = true := by
  simp only [stateAgrees, sole, beq_iff_eq] at agrees
  obtain ⟨y, one⟩ := List.length_eq_one_iff.1 agrees
  have only (i : StationId) : has r.holders i = true ↔ i = y := by
    have mem : i ∈ allIds.filter (has r.holders) ↔ i ∈ [y] := by rw [one]
    simpa using mem
  obtain rfl := (only x).1 held
  rw [isEmptySet_iff]
  intro i
  rw [has_dropFrom]
  by_cases hi : x = i
  · simp [hi]
  · have : has r.holders i = false := by
      rw [← Bool.not_eq_true, only]
      exact fun h => hi h.symm
    simp [this]

theorem removeHolder_agrees (x : StationId) (agrees : stateAgrees r = true) : stateAgrees (removeHolder x r) = true := by
  by_cases held : has r.holders x = true
  · rw [removeHolder_of_holder held]
    by_cases empty : isEmptySet (dropFrom r.holders x) = true
    · simp [stateAgrees, empty]
    · have state : r.state = .shared := by
        cases state : r.state with
        | free => simp [(isEmptySet_iff _).1 ((free_iff_empty agrees).1 state) x] at held
        | sole => exact absurd (sole_removal_empties state agrees held) empty
        | shared => rfl
      simp [stateAgrees, state, empty]
  · rw [removeHolder_of_not_holder (by simpa using held)]
    exact agrees

/-- A lawful record stays lawful when entries leave its queue. -/
theorem lawful_of_queue_sublist {q : List ClaimEntry} (lawful : lawfulLock r = true) (sub : q.Sublist r.queue) :
    lawfulLock { r with queue := q } = true := by
  obtain ⟨agrees, ordered, distinct, notHeld⟩ := lawfulLock_iff.1 lawful
  exact lawfulLock_iff.2 ⟨agrees, ordered.sublist sub, distinct.sublist sub, fun a ha => notHeld a (sub.subset ha)⟩

theorem removeHolder_lawful (x : StationId) (lawful : lawfulLock r = true) : lawfulLock (removeHolder x r) = true := by
  obtain ⟨agrees, ordered, distinct, notHeld⟩ := lawfulLock_iff.1 lawful
  refine lawfulLock_iff.2 ⟨removeHolder_agrees x agrees, ?_, ?_, fun a ha => ?_⟩
  · simpa using ordered
  · simpa using distinct
  · rw [removeHolder_queue] at ha
    simp [removeHolder_holders, notHeld a ha]

/-! ### An insertion (R7) -/

theorem insertEntry_split {q : List ClaimEntry} (e : ClaimEntry) (ordered : highFirst q = true) :
    ∃ before after,
      q = before ++ after ∧ insertEntry e q = before ++ e :: after ∧ (e.cls = .standard → after = []) ∧
        (e.cls = .high → (∀ a ∈ before, a.cls = .high) ∧ ∀ a ∈ after, a.cls = .standard) := by
  cases cls : e.cls with
  | high =>
    obtain ⟨before, after, split_q, inserted, high, standard⟩ := insertHigh_spec (e := e) ordered
    exact ⟨before, after, split_q, by simp [insertEntry, cls, inserted], by simp, fun _ => ⟨high, standard⟩⟩
  | standard => exact ⟨q, [], by simp, by simp [insertEntry, cls], by simp, by simp⟩

/-- A new entry of a station that does not stand in the record keeps it lawful, in the place its class gives. -/
theorem insert_lawful {e : ClaimEntry} {before after : List ClaimEntry} (lawful : lawfulLock r = true)
    (queue : r.queue = before ++ after) (absent : standsIn e.station r = false) (standard : e.cls = .standard → after = [])
    (high : e.cls = .high → (∀ a ∈ before, a.cls = .high) ∧ ∀ a ∈ after, a.cls = .standard) :
    lawfulLock { r with queue := before ++ e :: after } = true := by
  obtain ⟨agrees, ordered, distinct, notHeld⟩ := lawfulLock_iff.1 lawful
  obtain ⟨notHolder, notQueued⟩ := standsIn_eq_false_iff.1 absent
  have moved : (e :: (before ++ after)).Perm (before ++ e :: after) := List.perm_middle.symm
  refine lawfulLock_iff.2 ⟨agrees, ?_, ?_, fun a ha => ?_⟩
  · rw [queue, List.pairwise_append] at ordered
    refine List.pairwise_append.2 ⟨ordered.1, List.pairwise_cons.2 ⟨?_, ordered.2.1⟩, fun a ha b hb => ?_⟩
    · intro b hb
      cases cls : e.cls with
      | high => exact .inl rfl
      | standard => simp [standard cls] at hb
    · obtain rfl | hb := List.mem_cons.1 hb
      · cases cls : b.cls with
        | high => exact .inl ((high cls).1 a ha)
        | standard => exact .inr rfl
      · exact ordered.2.2 a ha b hb
  · refine (moved.pairwise_iff fun {_ _} h => h.symm).1 (List.pairwise_cons.2 ⟨fun b hb => ?_, queue ▸ distinct⟩)
    exact (notQueued b (queue ▸ hb)).symm
  · obtain rfl | ha := List.mem_cons.1 (moved.mem_iff.2 ha)
    · exact notHolder
    · exact notHeld a (queue ▸ ha)

/-! ### One record and what became of it -/

/-- The new record is lawful, leaves no head that could be granted, and nobody new stands in it. -/
structure Shrunk (r r' : LockRecord) : Prop where
  lawful : lawfulLock r' = true
  blocked : headBlocked r' = true
  queue : r'.queue.Sublist r.queue
  stands : ∀ x : StationId, standsIn x r' = true → standsIn x r = true

theorem Shrunk.refl (lawful : lawfulLock r = true) (blocked : headBlocked r = true) : Shrunk r r :=
  ⟨lawful, blocked, .refl _, fun _ h => h⟩

/-- A holder may leave and entries may leave the queue, and promotion runs. -/
theorem promote_shrunk (k : LockId) {q : List ClaimEntry} (x : StationId) (lawful : lawfulLock r = true)
    (sub : q.Sublist r.queue) : Shrunk r (promote k { removeHolder x r with queue := q }).1 := by
  have lawful' : lawfulLock { removeHolder x r with queue := q } = true :=
    lawful_of_queue_sublist (removeHolder_lawful x lawful) (by simpa using sub)
  have agrees := stateAgrees_of_lawful lawful'
  have queue := promote_queue_sublist k agrees
  refine ⟨promote_lawful k lawful', promote_blocked k agrees, queue.trans sub, fun y stands => ?_⟩
  have entry (h : ∃ e ∈ q, e.station = y) : standsIn y r = true := by
    obtain ⟨e, he, station⟩ := h
    exact standsIn_iff.2 (.inr ⟨e, sub.subset he, station⟩)
  obtain held | ⟨e, he, station⟩ := standsIn_iff.1 stands
  · obtain held | queued := has_promote k agrees held
    · rw [removeHolder_holders] at held
      exact standsIn_iff.2 (.inl (by simp_all))
    · exact entry queued
  · exact entry ⟨e, queue.subset he, station⟩

theorem removeHolder_eta (x : StationId) (r : LockRecord) :
    removeHolder x r = { removeHolder x r with queue := r.queue } := by
  rw [← removeHolder_queue (x := x) (r := r)]

theorem giveUp_shrunk (k : LockId) (x : StationId) (lawful : lawfulLock r = true) :
    Shrunk r (promote k (removeHolder x r)).1 := by
  rw [removeHolder_eta]
  exact promote_shrunk k x lawful (.refl _)

theorem releaseLock_eq (x : StationId) (k : LockId) (r : LockRecord) :
    releaseLock x k r = promote k { removeHolder x r with queue := r.queue.eraseP fun e => e.station == x } := by
  rw [releaseLock, removeHolder_queue]

theorem releaseLock_shrunk (k : LockId) (x : StationId) (lawful : lawfulLock r = true) :
    Shrunk r (releaseLock x k r).1 := by
  rw [releaseLock_eq]
  exact promote_shrunk k x lawful List.eraseP_sublist

/-! ### The release of a departed station (R24) -/

theorem not_mem_eraseP_station {q : List ClaimEntry} (distinct : q.Pairwise fun a b => a.station ≠ b.station) :
    ∀ e ∈ q.eraseP (fun e => e.station == x), e.station ≠ x := by
  induction q with
  | nil => simp
  | cons a q ih =>
    obtain ⟨head, tail⟩ := List.pairwise_cons.1 distinct
    by_cases ha : a.station = x
    · simp only [List.eraseP_cons, ha, beq_self_eq_true, cond_true]
      exact fun e he => ha ▸ (head e he).symm
    · have : (a.station == x) = false := by simpa using ha
      simp only [List.eraseP_cons, this, cond_false, List.mem_cons, forall_eq_or_imp]
      exact ⟨ha, ih tail⟩

/-- The departed station stands in the record no more. -/
theorem releaseLock_not_stands (k : LockId) (x : StationId) (lawful : lawfulLock r = true) :
    standsIn x (releaseLock x k r).1 = false := by
  have gone := not_mem_eraseP_station (x := x) (lawfulLock_iff.1 lawful).2.2.1
  rw [releaseLock_eq]
  have agrees : stateAgrees { removeHolder x r with queue := r.queue.eraseP fun e => e.station == x } = true :=
    removeHolder_agrees x (stateAgrees_of_lawful lawful)
  refine standsIn_eq_false_iff.2 ⟨?_, fun e he => gone e ((promote_queue_sublist k agrees).subset he)⟩
  rw [← Bool.not_eq_true]
  intro held
  obtain held | ⟨e, he, station⟩ := has_promote k agrees held
  · simp [removeHolder_holders] at held
  · exact gone e he station

/-- Every other holder stays. -/
theorem releaseLock_keeps_holder (k : LockId) {y : StationId} (lawful : lawfulLock r = true) (other : y ≠ x)
    (held : has r.holders y = true) : has (releaseLock x k r).1.holders y = true := by
  rw [releaseLock_eq]
  have agrees : stateAgrees { removeHolder x r with queue := r.queue.eraseP fun e => e.station == x } = true :=
    removeHolder_agrees x (stateAgrees_of_lawful lawful)
  refine has_promote_of_has k agrees ?_
  simp [removeHolder_holders, held, other.symm]

theorem releaseOver_getElem (x : StationId) (ks : List LockId) (once : ks.Nodup) (locks : Locks) (j : LockId) :
    (releaseOver x ks locks).1[j] = if j ∈ ks then (releaseLock x j locks[j]).1 else locks[j] := by
  induction ks generalizing locks with
  | nil => simp [releaseOver]
  | cons k ks ih =>
    obtain ⟨notLater, once⟩ := List.nodup_cons.1 once
    simp only [releaseOver]
    rw [ih once]
    by_cases hj : k = j
    · subst hj
      rw [if_neg notLater, getElem_put_same, if_pos (by simp)]
    · simp only [getElem_put_ne _ _ hj, List.mem_cons, (Ne.symm hj : j ≠ k), false_or]

theorem release_getElem (x : StationId) (locks : Locks) (j : LockId) :
    (release x locks).1[j] = (releaseLock x j locks[j]).1 := by
  rw [release, releaseOver_getElem x allLocks (List.nodup_finRange 64), if_pos (List.mem_finRange j)]

end Sys2Proof.Machine
end

section
/-!
SUPPORT. The laws of a replica (R2, R5 to R8, R17, R76, R77) under every frame's own effect.
-/

namespace Sys2Proof.Machine

variable {r : Replica} {k : LockId} {x : StationId}

/-! ### Pool and quota (R5, R6) -/

/-- One record of a table is replaced: a sum over the records moves by the difference. -/
theorem sum_put (g : LockRecord → Nat) (locks : Locks) (k : LockId) (rec : LockRecord) :
    (allLocks.map fun j => g (put locks k rec)[j]).sum + g locks[k] = (allLocks.map fun j => g locks[j]).sum + g rec := by
  have split_sum (v : Locks) : (allLocks.map fun j => g v[j]).sum = g v[k] + ∑ j ∈ Finset.univ.erase k, g v[j] := by
    rw [← Fin.sum_univ_def]
    exact (Finset.add_sum_erase Finset.univ (fun j => g v[j]) (Finset.mem_univ k)).symm
  have others : ∑ j ∈ Finset.univ.erase k, g (put locks k rec)[j] = ∑ j ∈ Finset.univ.erase k, g locks[j] :=
    Finset.sum_congr rfl fun j hj => by rw [getElem_put_ne _ _ (Finset.ne_of_mem_erase hj).symm]
  rw [split_sum, split_sum locks, others, getElem_put_same]
  omega

theorem poolInUse_le {locks locks' : Locks} (h : ∀ j : LockId, locks'[j].queue.Sublist locks[j].queue) :
    poolInUse locks' ≤ poolInUse locks :=
  List.sum_le_sum fun j _ => (h j).length_le

theorem entriesOf_le {locks locks' : Locks} (h : ∀ j : LockId, locks'[j].queue.Sublist locks[j].queue) (x : StationId) :
    entriesOf x locks' ≤ entriesOf x locks :=
  List.sum_le_sum fun j _ => ((h j).filter _).length_le

/-- One more entry in one queue, from which promotion may take heads. -/
theorem poolInUse_put_le {locks : Locks} {rec : LockRecord} {q : List ClaimEntry}
    (sub : rec.queue.Sublist q) (length : q.length = locks[k].queue.length + 1) :
    poolInUse (put locks k rec) ≤ poolInUse locks + 1 := by
  have := sum_put (fun r => r.queue.length) locks k rec
  have := sub.length_le
  unfold poolInUse
  omega

theorem entriesOf_put_le {locks : Locks} {rec : LockRecord} {q : List ClaimEntry} {e : ClaimEntry}
    (sub : rec.queue.Sublist q) (perm : q.Perm (e :: locks[k].queue)) (x : StationId) :
    entriesOf x (put locks k rec) ≤ entriesOf x locks + if e.station = x then 1 else 0 := by
  have total := sum_put (fun r => (r.queue.filter fun e => e.station == x).length) locks k rec
  have shorter := (sub.filter fun e => e.station == x).length_le
  have counted := (perm.filter fun e => e.station == x).length_eq
  unfold entriesOf
  split
  · next same =>
    simp only [List.filter_cons, same, beq_self_eq_true, if_true, List.length_cons] at counted
    omega
  · next other =>
    have : (e.station == x) = false := by simpa using other
    simp only [List.filter_cons, this, Bool.false_eq_true, if_false] at counted
    omega

/-! ### Applications that add nobody -/

/-- The laws hold of a replica whose records are shrunk from a lawful one's, where the roster still lists who stands. -/
theorem ReplicaLaws.shrunk {r' : Replica} (laws : ReplicaLaws r) (shrunk : ∀ j : LockId, Shrunk r.locks[j] r'.locks[j])
    (onlyFull : OnlyFullStand r') (join : JoinAgrees r') : ReplicaLaws r' where
  lawful j := (shrunk j).lawful
  blocked j := (shrunk j).blocked
  pool :=
    ⟨(poolInUse_le fun j => (shrunk j).queue).trans laws.pool.1,
      fun x => (entriesOf_le (fun j => (shrunk j).queue) x).trans (laws.pool.2 x)⟩
  onlyFull := onlyFull
  join := join

/-- One record shrinks; roster and join record stay. -/
theorem ReplicaLaws.put_shrunk {rec : LockRecord} (laws : ReplicaLaws r) (shrunk : Shrunk r.locks[k] rec) :
    ReplicaLaws { r with locks := put r.locks k rec } := by
  have all (j : LockId) : Shrunk r.locks[j] (put r.locks k rec)[j] := by
    rw [getElem_put]
    split
    · next h => exact h ▸ shrunk
    · exact .refl (laws.lawful j) (laws.blocked j)
  exact laws.shrunk all (fun j x stands => laws.onlyFull j x ((all j).stands x stands)) laws.join

theorem ReplicaLaws.released (laws : ReplicaLaws r) (x : StationId) (j : LockId) :
    Shrunk r.locks[j] (release x r.locks).1[j] := by
  rw [release_getElem]
  exact releaseLock_shrunk j x (laws.lawful j)

/-! ### A CLAIM (R13 to R16) -/

theorem claimOutcome_waits {m : Mode} {form : Form} {locks : Locks} (h : claimOutcome x k m form locks = .waits) :
    standsIn x locks[k] = false ∧ entriesOf x locks < Config.quota ∧ poolInUse locks < Config.poolSize := by
  unfold claimOutcome at h
  dsimp only at h
  split at h
  · cases h
  split at h
  · cases h
  split at h
  · cases h
  split at h
  · cases h
  split at h
  · cases h
  split at h
  · cases h
  next notHeld notQueued _ _ quota pool =>
    exact ⟨by simp only [standsIn, notHeld, notQueued, Bool.or_self], by omega, by omega⟩

theorem claimOutcome_granted {m : Mode} {form : Form} {locks : Locks} (h : claimOutcome x k m form locks = .granted) :
    standsIn x locks[k] = false ∧ grantedAtOnce locks[k] m = true := by
  unfold claimOutcome at h
  dsimp only at h
  split at h
  · cases h
  split at h
  · cases h
  split at h
  · next notHeld notQueued atOnce => exact ⟨by simp only [standsIn, notHeld, notQueued, Bool.or_self], atOnce⟩
  repeat' split at h
  all_goals cases h

theorem grantedAtOnce_iff {r : LockRecord} {m : Mode} :
    grantedAtOnce r m = true ↔ r.queue = [] ∧ (r.state = .free ∨ (r.state = .shared ∧ m = .shared)) := by
  simp [grantedAtOnce]

theorem grantable_of_atOnce {r : LockRecord} {m : Mode} (agrees : stateAgrees r = true) (h : grantedAtOnce r m = true) :
    grantable r m = true := by
  obtain ⟨-, state | ⟨state, rfl⟩⟩ := grantedAtOnce_iff.1 h
  · cases m with
    | sole => exact (free_iff_empty agrees).1 state
    | shared => simp [grantable, state]
  · simp [grantable, state]

/-- The record after a grant at once: nobody waits on it. -/
theorem grantedAtOnce_lawful {r : LockRecord} {m : Mode} (agrees : stateAgrees r = true) (h : grantedAtOnce r m = true) :
    lawfulLock (grant x m r) = true ∧ headBlocked (grant x m r) = true := by
  have queue : (grant x m r).queue = [] := (grantedAtOnce_iff.1 h).1
  refine ⟨lawfulLock_iff.2 ⟨grant_agrees (grantable_of_atOnce agrees h), ?_, ?_, ?_⟩, ?_⟩ <;>
    simp [queue, headBlocked]

theorem standsIn_grant {r : LockRecord} {m : Mode} {y : StationId} :
    standsIn y (grant x m r) = true ↔ x = y ∨ standsIn y r = true := by
  rw [standsIn_iff, standsIn_iff, has_grant]
  simp [grant, or_assoc]

/-- One record is replaced by a lawful one in which only the FULL station `x` is new. -/
theorem ReplicaLaws.put_joined {rec : LockRecord} (laws : ReplicaLaws r) (lawful : lawfulLock rec = true)
    (blocked : headBlocked rec = true) (pool : PoolKept (put r.locks k rec)) (full : r.roster[x] = .full)
    (stands : ∀ y, standsIn y rec = true → y = x ∨ standsIn y r.locks[k] = true) :
    ReplicaLaws { r with locks := put r.locks k rec } where
  lawful j := by
    rw [getElem_put]
    split
    · exact lawful
    · exact laws.lawful j
  blocked j := by
    rw [getElem_put]
    split
    · exact blocked
    · exact laws.blocked j
  pool := pool
  onlyFull j y h := by
    rw [getElem_put] at h
    split at h
    · next same =>
      obtain rfl | h := stands y h
      · exact full
      · exact laws.onlyFull k y h
    · exact laws.onlyFull j y h
  join := laws.join

/-- The record with a new entry in its place, as a waiting CLAIM leaves it for promotion (R7, R16). -/
def joinQueue (e : ClaimEntry) (rec : LockRecord) : LockRecord := { rec with queue := insertEntry e rec.queue }

theorem joinQueue_lawful {rec : LockRecord} {e : ClaimEntry} (lawful : lawfulLock rec = true)
    (absent : standsIn e.station rec = false) : lawfulLock (joinQueue e rec) = true := by
  obtain ⟨before, after, queue, inserted, standard, high⟩ :=
    insertEntry_split e (highFirst_iff.2 (lawfulLock_iff.1 lawful).2.1)
  rw [joinQueue, inserted]
  exact insert_lawful lawful queue absent standard high

theorem insertEntry_perm (e : ClaimEntry) {q : List ClaimEntry} (ordered : highFirst q = true) :
    (insertEntry e q).Perm (e :: q) := by
  obtain ⟨before, after, rfl, inserted, -, -⟩ := insertEntry_split e ordered
  rw [inserted]
  exact List.perm_middle

/-- Who stands in the record a waiting claim leaves: the claimant, and who stood there before. -/
theorem standsIn_promote_joinQueue {rec : LockRecord} {e : ClaimEntry} {y : StationId}
    (agrees : stateAgrees rec = true)
    (stands : standsIn y (promote k (joinQueue e rec)).1 = true) :
    y = e.station ∨ standsIn y rec = true := by
  have waiting (h : ∃ a ∈ insertEntry e rec.queue, a.station = y) : y = e.station ∨ standsIn y rec = true := by
    obtain ⟨a, ha, station⟩ := h
    obtain rfl | ha := (mem_insertEntry a).1 ha
    · exact .inl station.symm
    · exact .inr (standsIn_iff.2 (.inr ⟨a, ha, station⟩))
  have agrees' : stateAgrees (joinQueue e rec) = true := agrees
  obtain held | ⟨a, ha, station⟩ := standsIn_iff.1 stands
  · obtain held | queued := has_promote k agrees' held
    · exact .inr (standsIn_iff.2 (.inl held))
    · exact waiting queued
  · exact waiting ⟨a, (promote_queue_sublist k agrees').subset ha, station⟩

/-- A claim joins the queue and promotion runs, quota and pool allowing one more entry. -/
theorem waits_laws {e : ClaimEntry} {form : Form} (laws : ReplicaLaws r) (full : r.roster[e.station] = .full)
    (waits : claimOutcome e.station k e.mode form r.locks = .waits) :
    ReplicaLaws { r with locks := put r.locks k (promote k (joinQueue e r.locks[k])).1 } := by
  have lawful := laws.lawful k
  have lawful' := joinQueue_lawful lawful (claimOutcome_waits waits).1
  have agrees' := stateAgrees_of_lawful lawful'
  have sub := promote_queue_sublist k agrees'
  have perm := insertEntry_perm e (highFirst_iff.2 (lawfulLock_iff.1 lawful).2.1)
  have total := poolInUse_put_le (k := k) (locks := r.locks) sub length_insertEntry
  have each (y : StationId) := entriesOf_put_le (k := k) (locks := r.locks) sub perm y
  have stands (y : StationId) := standsIn_promote_joinQueue (k := k) (e := e) (y := y) (stateAgrees_of_lawful lawful)
  refine laws.put_joined (promote_lawful k lawful') (promote_blocked k agrees') ⟨?_, fun y => ?_⟩ full stands
  · exact Nat.le_trans total (claimOutcome_waits waits).2.2
  · refine Nat.le_trans (each y) ?_
    by_cases same : e.station = y
    · rw [if_pos same, ← same]
      exact (claimOutcome_waits waits).2.1
    · rw [if_neg same, Nat.add_zero]
      exact laws.pool.2 y

/-- A claim is granted at once. -/
theorem granted_laws {m : Mode} (laws : ReplicaLaws r) (full : r.roster[x] = .full)
    (atOnce : grantedAtOnce r.locks[k] m = true) :
    ReplicaLaws { r with locks := put r.locks k (grant x m r.locks[k]) } := by
  obtain ⟨lawful', blocked⟩ := grantedAtOnce_lawful (x := x) (stateAgrees_of_lawful (laws.lawful k)) atOnce
  have shorter (j : LockId) : ((put r.locks k (grant x m r.locks[k]))[j]).queue.Sublist r.locks[j].queue := by
    rw [getElem_put]
    split
    · next same => exact same ▸ .refl _
    · exact .refl _
  exact laws.put_joined lawful' blocked
    ⟨(poolInUse_le shorter).trans laws.pool.1, fun y => (entriesOf_le shorter y).trans (laws.pool.2 y)⟩ full
    fun y stands => (standsIn_grant.1 stands).imp_left Eq.symm

theorem applyClaim_laws {m : Mode} {c : ClaimClass} {form : Form} {t : TicketId} (laws : ReplicaLaws r)
    (full : r.roster[x] = .full) : ReplicaLaws { r with locks := (applyClaim x k m c form t r.locks).1 } := by
  unfold applyClaim
  split
  · exact laws
  · next granted => exact granted_laws laws full (claimOutcome_granted granted).2
  · next waits => exact waits_laws (e := { station := x, mode := m, cls := c, ticket := t }) laws full waits

/-! ### YIELD, RECALL and EXPIRE (R20, R21, R23) -/

theorem giveUp_laws (laws : ReplicaLaws r) : ReplicaLaws { r with locks := (giveUp x k r.locks).1 } :=
  laws.put_shrunk (giveUp_shrunk k x (laws.lawful k))

theorem applyYield_laws {t : TicketId} (laws : ReplicaLaws r) :
    ReplicaLaws { r with locks := (applyYield x k t r.locks).1 } := by
  unfold applyYield
  split
  · exact giveUp_laws laws
  · exact laws

/-- A removal from the queue alone: nobody outside the holder set is removed from it. -/
theorem eraseP_shrunk {rec : LockRecord} (k : LockId) (p : ClaimEntry → Bool) (lawful : lawfulLock rec = true) :
    Shrunk rec (promote k { rec with queue := rec.queue.eraseP p }).1 := by
  have lawful' := lawful_of_queue_sublist lawful (List.eraseP_sublist (p := p))
  have agrees := stateAgrees_of_lawful lawful'
  have sub := promote_queue_sublist k agrees
  refine ⟨promote_lawful k lawful', promote_blocked k agrees, sub.trans List.eraseP_sublist, fun y stands => ?_⟩
  obtain held | ⟨e, he, station⟩ := standsIn_iff.1 stands
  · obtain held | ⟨e, he, station⟩ := has_promote k agrees held
    · exact standsIn_iff.2 (.inl held)
    · exact standsIn_iff.2 (.inr ⟨e, List.eraseP_subset he, station⟩)
  · exact standsIn_iff.2 (.inr ⟨e, List.eraseP_subset (sub.subset he), station⟩)

theorem applyRecall_laws {target t : TicketId} (laws : ReplicaLaws r) :
    ReplicaLaws { r with locks := (applyRecall x k target t r.locks).1 } := by
  unfold applyRecall
  dsimp only
  split
  · exact laws.put_shrunk (eraseP_shrunk k _ (laws.lawful k))
  · split <;> exact laws

/-! ### Departures (R24, R89 to R93, R103) -/

theorem JoinAgrees.pending_iff (join : JoinAgrees r) (x : StationId) :
    r.roster[x] = .pending ↔ r.join.map JoinRecord.joiner = some x := join.1 x

/-- A station that stands nowhere in the new records leaves the roster, and the join agrees with what is left. -/
theorem ReplicaLaws.left {locks : Locks} {join' : Option JoinRecord} (laws : ReplicaLaws r)
    (shrunk : ∀ j : LockId, Shrunk r.locks[j] locks[j]) (gone : ∀ j : LockId, standsIn x locks[j] = false)
    (join : JoinAgrees { r with roster := put r.roster x .absent, join := join' }) :
    ReplicaLaws { r with locks := locks, roster := put r.roster x .absent, join := join' } := by
  refine laws.shrunk shrunk (fun j y stands => ?_) join
  have other : x ≠ y := by
    rintro rfl
    rw [gone j] at stands
    cases stands
  exact (getElem_put_ne r.roster .absent other).trans (laws.onlyFull j y ((shrunk j).stands y stands))

theorem ReplicaLaws.stands_nowhere (laws : ReplicaLaws r) (notFull : r.roster[x] ≠ .full) (j : LockId) :
    standsIn x r.locks[j] = false := by
  rw [← Bool.not_eq_true]
  exact fun stands => notFull (laws.onlyFull j x stands)

theorem ReplicaLaws.unlisted {join' : Option JoinRecord} (laws : ReplicaLaws r) (notFull : r.roster[x] ≠ .full)
    (join : JoinAgrees { r with roster := put r.roster x .absent, join := join' }) :
    ReplicaLaws { r with roster := put r.roster x .absent, join := join' } :=
  laws.left (fun j => .refl (laws.lawful j) (laws.blocked j)) (laws.stands_nowhere notFull) join

/-- One more ID ABSENT, and nobody else PENDING. -/
theorem not_pending_put_absent {roster : Roster} (h : ∀ y : StationId, y ≠ x → roster[y] ≠ .pending) (y : StationId) :
    (put roster x .absent)[y] ≠ .pending := by
  rw [getElem_put]
  split
  · simp
  · next other => exact h y (Ne.symm other)

/-- The joiner is the only PENDING ID. -/
theorem JoinAgrees.only_joiner (join : JoinAgrees r) (pending : r.roster[x] = .pending) {y : StationId} (other : y ≠ x) :
    r.roster[y] ≠ .pending := by
  intro h
  have hx := (join.pending_iff x).1 pending
  have hy := (join.pending_iff y).1 h
  exact other (Option.some.inj (hy.symm.trans hx))

/-- A FULL station's departure leaves the join agreeing where it is not the copy source. -/
theorem JoinAgrees.departed (join : JoinAgrees r) (full : r.roster[x] = .full)
    (notSource : ∀ j, r.join = some j → j.source ≠ x) : JoinAgrees { r with roster := put r.roster x .absent } := by
  refine ⟨fun y => ?_, fun j hj => ?_⟩
  · have := join.pending_iff y
    simp only [getElem_put]
    split
    · next same =>
      subst same
      rw [full] at this
      simpa using this
    · exact this
  · simp only [getElem_put_ne _ _ (notSource j hj).symm]
    exact join.2 j hj

theorem cancelJoinOf_of_source {a : Applied} {j : JoinRecord} (hj : a.replica.join = some j) (source : j.source = x) :
    cancelJoinOf x a = clearJoin (setRoster j.joiner .absent a) := by
  simp only [cancelJoinOf, hj, source, beq_self_eq_true, if_true]

theorem cancelJoinOf_of_not_source {a : Applied} (h : ∀ j, a.replica.join = some j → j.source ≠ x) :
    cancelJoinOf x a = a := by
  unfold cancelJoinOf
  split
  · next j hj =>
    rw [if_neg]
    simpa using h j hj
  · rfl

end Sys2Proof.Machine
end

section
/-!
SUPPORT. Departures, entries and admissions over a lawful replica (R24, R89 to R93, R103, R104, R110), and with them every
application (R38); what each kind of frame makes of a replica.
-/

namespace Sys2Proof.Machine

variable {r : Replica} {k : LockId} {x : StationId}

/-! ### Departures -/

theorem standsIn_release (laws : LocksLawful r.locks) (x : StationId) (j : LockId) :
    standsIn x (release x r.locks).1[j] = false := by
  rw [release_getElem]
  exact releaseLock_not_stands j x (laws j)

/-- A FULL station's departure, the table's change being `c`; it is the source of no join. -/
theorem departed_of_not_source (c : TableChange) (notSource : ∀ j, r.join = some j → j.source ≠ x) :
    cancelJoinOf x (setRoster x .absent (Applied.ofTable r c)) =
      { replica := { r with locks := c.1, roster := put r.roster x .absent }, events := c.2,
        changes := [{ id := x, was := r.roster[x], now := .absent }], entry := none } :=
  cancelJoinOf_of_not_source notSource

/-- The same of the copy source of a join, which is cancelled with it (R91). -/
theorem departed_of_source (c : TableChange) {j : StationId} (join : r.join = some { joiner := j, source := x })
    (other : x ≠ j) :
    cancelJoinOf x (setRoster x .absent (Applied.ofTable r c)) =
      { replica := { r with locks := c.1, roster := put (put r.roster x .absent) j .absent, join := none },
        events := c.2,
        changes := [{ id := x, was := r.roster[x], now := .absent }, { id := j, was := r.roster[j], now := .absent }],
        entry := none } := by
  rw [cancelJoinOf_of_source (j := { joiner := j, source := x }) join rfl, ← getElem_put_ne r.roster .absent other]
  rfl

theorem departed_roster (c : TableChange) : (cancelJoinOf x (setRoster x .absent (Applied.ofTable r c))).replica.roster[x] = .absent := by
  unfold cancelJoinOf
  split
  · split
    · simp only [clearJoin, setRoster, Applied.ofTable, getElem_put]
      split <;> rfl
    · exact getElem_put_same _ _ _
  · exact getElem_put_same _ _ _

theorem joiner_ne_full {j : JoinRecord} (join : JoinAgrees r) (hj : r.join = some j) (full : r.roster[x] = .full) :
    x ≠ j.joiner := by
  rintro rfl
  rw [(join.pending_iff _).2 (by rw [hj]; rfl)] at full
  cases full

/-- The laws after a FULL station's departure, whatever the table's change `c` that it stands nowhere in. -/
theorem departed_laws (c : TableChange) (laws : ReplicaLaws r) (full : r.roster[x] = .full)
    (shrunk : ∀ k : LockId, Shrunk r.locks[k] c.1[k]) (gone : ∀ k : LockId, standsIn x c.1[k] = false) :
    ReplicaLaws (cancelJoinOf x (setRoster x .absent (Applied.ofTable r c))).replica := by
  by_cases source : ∃ j, r.join = some { joiner := j, source := x }
  · obtain ⟨j, hj⟩ := source
    have other : x ≠ j := joiner_ne_full laws.join hj full
    have pending : r.roster[j] = .pending := (laws.join.pending_iff j).2 (by rw [hj]; rfl)
    have nobody (y : StationId) : (put (put r.roster x .absent) j .absent)[y] ≠ .pending := by
      refine not_pending_put_absent (fun y notJ => ?_) y
      rw [getElem_put]
      split
      · simp
      · exact laws.join.only_joiner pending notJ
    rw [departed_of_source c hj other]
    refine laws.shrunk shrunk (fun k y stands => ?_) ⟨fun y => by simpa using nobody y, by simp⟩
    have stood := laws.onlyFull k y ((shrunk k).stands y stands)
    have notX : x ≠ y := by
      rintro rfl
      rw [gone k] at stands
      cases stands
    have notJ : j ≠ y := by
      rintro rfl
      rw [pending] at stood
      cases stood
    exact (getElem_put_ne _ _ notJ).trans ((getElem_put_ne _ _ notX).trans stood)
  · have notSource : ∀ j, r.join = some j → j.source ≠ x := by
      rintro ⟨j, _⟩ hj rfl
      exact source ⟨j, hj⟩
    rw [departed_of_not_source c notSource]
    exact laws.left shrunk gone (laws.join.departed full notSource)

theorem depart_laws (laws : ReplicaLaws r) (full : r.roster[x] = .full) : ReplicaLaws (depart x r).replica :=
  departed_laws _ laws full (laws.released x) (standsIn_release laws.lawful x)

theorem remove_of_full (full : r.roster[x] = .full) : remove x r = depart x r := by simp [remove, full]

theorem remove_of_pending (pending : r.roster[x] = .pending) :
    remove x r =
      { replica := { r with roster := put r.roster x .absent, join := none }, events := [],
        changes := [{ id := x, was := .pending, now := .absent }], entry := none } := by
  simp [remove, unlist, clearJoin, setRoster, Applied.nothing, pending]

theorem remove_of_absent (absent : r.roster[x] = .absent) : remove x r = Applied.nothing r := by simp [remove, absent]

theorem remove_laws (x : StationId) (laws : ReplicaLaws r) : ReplicaLaws (remove x r).replica := by
  cases state : r.roster[x] with
  | full =>
    rw [remove_of_full state]
    exact depart_laws laws state
  | pending =>
    rw [remove_of_pending state]
    have nobody := not_pending_put_absent fun y => laws.join.only_joiner state (y := y)
    exact laws.unlisted (by rw [state]; simp) ⟨fun y => by simpa using nobody y, by simp⟩
  | absent =>
    rw [remove_of_absent state]
    exact laws

/-- Whoever ceases to belong is ABSENT. -/
theorem remove_roster (x : StationId) (r : Replica) : (remove x r).replica.roster[x] = .absent := by
  cases state : r.roster[x] with
  | full =>
    rw [remove_of_full state]
    exact departed_roster _
  | pending =>
    rw [remove_of_pending state]
    exact getElem_put_same _ _ _
  | absent =>
    rw [remove_of_absent state]
    exact state

/-! ### ENTRY and ADMIT (R104, R110) -/

theorem answering_full {roster : Roster} {m : StationId} (h : answering roster = some m) : roster[m] = .full := by
  simpa using List.find?_some h

theorem answering_eq {roster : Roster} {m : StationId} (full : roster[m] = .full)
    (lowest : ∀ y : StationId, y < m → roster[y] ≠ .full) : answering roster = some m := by
  unfold answering allIds
  rw [List.find?_eq_some_iff_getElem]
  refine ⟨by simp [full], m.val, by simp, by simp, fun j hj => ?_⟩
  have := lowest ⟨j, by omega⟩ hj
  simpa using this

/-- A join is opened: one more PENDING ID, whose join record names it and a FULL source. -/
theorem opened_laws {m : StationId} (laws : ReplicaLaws r) (absent : r.roster[x] = .absent) (noJoin : r.join = none)
    (full : r.roster[m] = .full) :
    ReplicaLaws { r with roster := put r.roster x .pending, join := some { joiner := x, source := m } } := by
  have notM : x ≠ m := by
    rintro rfl
    rw [absent] at full
    cases full
  refine laws.shrunk (fun j => .refl (laws.lawful j) (laws.blocked j)) (fun j y stands => ?_) ⟨fun y => ?_, ?_⟩
  · have stood := laws.onlyFull j y stands
    have notX : x ≠ y := by
      rintro rfl
      rw [absent] at stood
      cases stood
    exact (getElem_put_ne _ _ notX).trans stood
  · have nobody := laws.join.pending_iff y
    rw [noJoin] at nobody
    simp only [getElem_put, Option.map_some, Option.some.injEq]
    split
    · next same => simp [same]
    · next other => simpa [other] using nobody
  · rintro j ⟨rfl⟩
    exact (getElem_put_ne _ _ notM).trans full

theorem decideEntry_laws {a : Applied} (i : Interval) (laws : ReplicaLaws a.replica)
    (absent : a.replica.roster[x] = .absent) : ReplicaLaws (decideEntry x i a).replica := by
  unfold decideEntry
  split
  · exact laws
  · next m answers =>
    split
    · exact laws
    · split
      · exact laws
      · next noJoin => exact opened_laws laws absent (by simpa using noJoin) (answering_full answers)

theorem applyAdmit_of_pending (pending : r.roster[x] = .pending) :
    applyAdmit x r =
      { replica := { r with roster := put r.roster x .full, join := none }, events := [],
        changes := [{ id := x, was := .pending, now := .full }], entry := none } := by
  simp [applyAdmit, clearJoin, setRoster, Applied.nothing, pending]

theorem applyAdmit_of_not_pending (notPending : r.roster[x] ≠ .pending) : applyAdmit x r = Applied.nothing r := by
  unfold applyAdmit
  split
  · next pending => exact absurd pending notPending
  · rfl

theorem applyAdmit_laws (x : StationId) (laws : ReplicaLaws r) : ReplicaLaws (applyAdmit x r).replica := by
  by_cases pending : r.roster[x] = .pending
  · rw [applyAdmit_of_pending pending]
    have nobody (y : StationId) : (put r.roster x .full)[y] ≠ .pending := by
      rw [getElem_put]
      split
      · simp
      · next other => exact laws.join.only_joiner pending (Ne.symm other)
    refine laws.shrunk (fun j => .refl (laws.lawful j) (laws.blocked j)) (fun j y stands => ?_)
      ⟨fun y => by simpa using nobody y, by simp⟩
    simp only [getElem_put]
    split
    · rfl
    · exact laws.onlyFull j y stands
  · rw [applyAdmit_of_not_pending pending]
    exact laws

/-! ### Every application -/

theorem ifFull_of_full {a : Applied} (full : r.roster[x] = .full) : ifFull x r a = a := by
  rw [ifFull, full]
  rfl

theorem ifFull_of_not_full {a : Applied} (notFull : r.roster[x] ≠ .full) : ifFull x r a = Applied.nothing r := by
  rw [ifFull, if_neg]
  simpa using notFull

/-- A FULL sender's application, or none at all. -/
theorem ifFull_laws {a : Applied} (laws : ReplicaLaws r) (h : r.roster[x] = .full → ReplicaLaws a.replica) :
    ReplicaLaws (ifFull x r a).replica := by
  by_cases full : r.roster[x] = .full
  · rw [ifFull_of_full full]
    exact h full
  · rw [ifFull_of_not_full full]
    exact laws

theorem ownEffect_laws (f : Frame) (laws : ReplicaLaws r) : ReplicaLaws (ownEffect f r).replica := by
  unfold ownEffect
  split
  · exact ifFull_laws laws fun full => applyClaim_laws laws full
  · exact ifFull_laws laws fun _ => applyYield_laws laws
  · exact ifFull_laws laws fun _ => applyRecall_laws laws
  · exact ifFull_laws laws fun _ => giveUp_laws laws
  · exact ifFull_laws laws fun _ => remove_laws _ laws
  · exact remove_laws _ laws
  · exact decideEntry_laws _ (remove_laws _ laws) (remove_roster _ r)
  · exact applyAdmit_laws _ laws
  all_goals exact laws

/-- The laws say nothing of the sequence. -/
theorem ReplicaLaws.sequence (laws : ReplicaLaws r) (n : Half) : ReplicaLaws { r with sequence := n } :=
  ⟨laws.lawful, laws.blocked, laws.pool, laws.onlyFull, laws.join⟩

/-- Settles O55: each kind's own effect keeps the laws. -/
theorem applicationKeepsReplicaLaws : Obligations.ApplicationKeepsReplicaLaws :=
  fun f _ laws => (ownEffect_laws f laws).sequence _

end Sys2Proof.Machine
end

section
/-!
SUPPORT. What each kind of table frame makes of a replica, as a whole new replica (R11 to R25, R89, R93, R103, R104, R110).
-/

namespace Sys2Proof.Machine

variable {f : Frame} {r : Replica} {k : LockId} {x : StationId}

/-- The frame's own effect, then one more in the sequence. -/
theorem applyFrame_eq {a : Applied} (h : ownEffect f r = a) :
    applyFrame f r = { a with replica := { a.replica with sequence := a.replica.sequence + 1 } } := by
  subst h
  rfl

/-- A frame without effect of its own advances the sequence and tells nobody anything. -/
theorem applyFrame_nothing (h : ownEffect f r = Applied.nothing r) :
    applyFrame f r = { replica := { r with sequence := r.sequence + 1 }, events := [], changes := [], entry := none } :=
  applyFrame_eq h

/-- A change of the lock table alone. -/
theorem applyFrame_table {c : TableChange} (h : ownEffect f r = Applied.ofTable r c) :
    applyFrame f r =
      { replica := { r with sequence := r.sequence + 1, locks := c.1 }, events := c.2, changes := [], entry := none } :=
  applyFrame_eq h

/-! ### Lock-table frames -/

theorem ownEffect_claim {m : Mode} {c : ClaimClass} {form : Form} {t : TicketId} (body : f.body = .claim k m c form t)
    (full : r.roster[f.sender] = .full) :
    ownEffect f r = Applied.ofTable r (applyClaim f.sender k m c form t r.locks) := by
  rw [ownEffect, body]
  exact ifFull_of_full full

theorem ownEffect_yield {t : TicketId} (body : f.body = .yield k t) (full : r.roster[f.sender] = .full) :
    ownEffect f r = Applied.ofTable r (applyYield f.sender k t r.locks) := by
  rw [ownEffect, body]
  exact ifFull_of_full full

theorem ownEffect_recall {target t : TicketId} (body : f.body = .recall k target t)
    (full : r.roster[f.sender] = .full) :
    ownEffect f r = Applied.ofTable r (applyRecall f.sender k target t r.locks) := by
  rw [ownEffect, body]
  exact ifFull_of_full full

theorem ownEffect_expire (body : f.body = .expire k) (full : r.roster[f.sender] = .full) :
    ownEffect f r = Applied.ofTable r (applyExpire f.sender k r.locks) := by
  rw [ownEffect, body]
  exact ifFull_of_full full

theorem ownEffect_evict (body : f.body = .evict x) (full : r.roster[f.sender] = .full) :
    ownEffect f r = remove x r := by
  rw [ownEffect, body]
  exact ifFull_of_full full

theorem ownEffect_leave (body : f.body = .leave) : ownEffect f r = remove f.sender r := by rw [ownEffect, body]

theorem ownEffect_entry {i : Interval} (body : f.body = .entry i) :
    ownEffect f r = decideEntry f.sender i (remove f.sender r) := by
  rw [ownEffect, body]
  rfl

theorem ownEffect_admission {j : StationId} {n : Nat} (body : f.body = .admission j n) :
    ownEffect f r = applyAdmit j r := by
  rw [ownEffect, body]

/-- Settles O52: none of the five kinds has an effect from a sender that is not FULL. -/
theorem onlyFullSendersChangeTheTable : Obligations.OnlyFullSendersChangeTheTable := by
  unfold Obligations.OnlyFullSendersChangeTheTable
  rintro f r notFull (⟨k, m, c, form, t, body⟩ | ⟨k, t, body⟩ | ⟨k, target, t, body⟩ | ⟨k, body⟩ | ⟨x, body⟩) <;>
    exact applyFrame_nothing (by rw [ownEffect, body]; exact ifFull_of_not_full notFull)

/-! ### The checks on a CLAIM (R13) -/

section Claim

variable {m : Mode} {form : Form} {locks : Locks}

theorem claimOutcome_held (held : has locks[k].holders x = true) : claimOutcome x k m form locks = .refused .held := by
  rw [claimOutcome, if_pos held]

theorem queued_iff {q : List ClaimEntry} : (q.any fun e => e.station == x) = true ↔ ∃ e ∈ q, e.station = x := by
  simp

theorem claimOutcome_waiting (notHeld : has locks[k].holders x = false) (queued : ∃ e ∈ locks[k].queue, e.station = x) :
    claimOutcome x k m form locks = .refused .waiting := by
  rw [claimOutcome, if_neg (ne_true_of_eq_false notHeld), if_pos (queued_iff.2 queued)]

/-- The claimant stands nowhere on the lock: check 3 and those after it decide. -/
theorem claimOutcome_of_absent (notHeld : has locks[k].holders x = false)
    (notQueued : ¬∃ e ∈ locks[k].queue, e.station = x) :
    claimOutcome x k m form locks =
      if grantedAtOnce locks[k] m then .granted
      else if form = .tryNow then .refused .busy
      else if Config.quota ≤ entriesOf x locks then .refused .quota
      else if Config.poolSize ≤ poolInUse locks then .refused .pool
      else .waits := by
  rw [claimOutcome, if_neg (ne_true_of_eq_false notHeld), if_neg (by rwa [queued_iff])]
  simp only [beq_iff_eq]

end Claim

section

variable {m : Mode} {c : ClaimClass} {form : Form} {t : TicketId}

theorem applyFrame_claim_refused {reason : ClaimRefusal} (body : f.body = .claim k m c form t)
    (full : r.roster[f.sender] = .full) (outcome : claimOutcome f.sender k m form r.locks = .refused reason) :
    applyFrame f r =
      { replica := { r with sequence := r.sequence + 1 }, events := [.refused f.sender t k reason], changes := [],
        entry := none } := by
  rw [applyFrame_table (ownEffect_claim body full), applyClaim, outcome]

theorem applyFrame_claim_granted (body : f.body = .claim k m c form t) (full : r.roster[f.sender] = .full)
    (outcome : claimOutcome f.sender k m form r.locks = .granted) :
    applyFrame f r =
      { replica := { r with sequence := r.sequence + 1, locks := put r.locks k (grant f.sender m r.locks[k]) },
        events := [.granted f.sender t k (r.locks[k].generation + 1)], changes := [], entry := none } := by
  rw [applyFrame_table (ownEffect_claim body full), applyClaim, outcome]
  rfl

theorem applyFrame_claim_waits (body : f.body = .claim k m c form t) (full : r.roster[f.sender] = .full)
    (outcome : claimOutcome f.sender k m form r.locks = .waits) :
    applyFrame f r =
      let p := promote k (joinQueue { station := f.sender, mode := m, cls := c, ticket := t } r.locks[k])
      { replica := { r with sequence := r.sequence + 1, locks := put r.locks k p.1 },
        events := .waits f.sender t k :: p.2, changes := [], entry := none } := by
  rw [applyFrame_table (ownEffect_claim body full), applyClaim, outcome]
  rfl

theorem grant_of_empty_queue {rec : LockRecord} (empty : rec.queue = []) :
    grant x m rec =
      { state := lockStateOf m, holders := addTo rec.holders x, queue := [], generation := rec.generation + 1 } := by
  rw [grant, empty]

end

/-- Settles O49: the outcome of the checks in their order, and what each makes of the replica. -/
theorem claimFollowsTheChecks : Obligations.ClaimFollowsTheChecks := by
  unfold Obligations.ClaimFollowsTheChecks
  intro f k m c form t r body full
  refine ⟨fun held => applyFrame_claim_refused body full (claimOutcome_held held), fun notHeld => ⟨fun queued =>
    applyFrame_claim_refused body full (claimOutcome_waiting notHeld queued), fun notQueued => ?_⟩⟩
  have outcome := claimOutcome_of_absent (m := m) (form := form) notHeld notQueued
  refine ⟨fun atOnce => ?_, fun notAtOnce => ?_⟩
  · rw [if_pos (grantedAtOnce_iff.2 atOnce)] at outcome
    rw [applyFrame_claim_granted body full outcome, grant_of_empty_queue atOnce.1]
    cases m <;> rfl
  · rw [if_neg (mt grantedAtOnce_iff.1 notAtOnce)] at outcome
    refine ⟨?_, ?_⟩
    · rintro rfl
      exact applyFrame_claim_refused body full (outcome.trans (if_pos rfl))
    · rintro rfl
      rw [if_neg (by simp)] at outcome
      refine ⟨fun quota => ?_, fun quota pool => ?_, fun quota pool lawful => ?_⟩
      · exact applyFrame_claim_refused body full (outcome.trans (if_pos quota))
      · rw [if_neg (Nat.not_le.2 quota)] at outcome
        exact applyFrame_claim_refused body full (outcome.trans (if_pos pool))
      · rw [if_neg (Nat.not_le.2 quota), if_neg (Nat.not_le.2 pool)] at outcome
        clear quota pool
        have absent : standsIn f.sender r.locks[k] = false :=
          standsIn_eq_false_iff.2 ⟨notHeld, fun e he station => notQueued ⟨e, he, station⟩⟩
        obtain ⟨before, after, queue, inserted, standard, high⟩ :=
          insertEntry_split { station := f.sender, mode := m, cls := c, ticket := t }
            (highFirst_iff.2 (lawfulLock_iff.1 lawful).2.1)
        have joined := joinQueue_lawful lawful absent (e := { station := f.sender, mode := m, cls := c, ticket := t })
        have waits := applyFrame_claim_waits body full outcome
        rw [joinQueue, inserted] at joined waits
        exact ⟨before, after, queue, standard, high, joined, waits, fun sole =>
          promote_of_sole k sole (stateAgrees_of_lawful joined)⟩

/-! ### YIELD, RECALL and EXPIRE (R20, R21, R23) -/

theorem removeHolder_eq (held : has r.locks[k].holders x = true) :
    removeHolder x r.locks[k] =
      { r.locks[k] with
        holders := dropFrom r.locks[k].holders x,
        state :=
          if ∀ y : StationId, has (dropFrom r.locks[k].holders x) y = false then .free else r.locks[k].state } := by
  rw [removeHolder_of_holder held]
  simp only [← isEmptySet_iff]

/-- Settles O51: the table changes of the three frames, by whether the sender holds the lock or waits under the target. -/
theorem yieldRecallAndExpireFollowTheTable : Obligations.YieldRecallAndExpireFollowTheTable := by
  unfold Obligations.YieldRecallAndExpireFollowTheTable
  intro f k r full
  refine ⟨fun t body held => ?_, fun t body notHeld => ?_, fun body held => ?_, fun target t body => ⟨?_, ?_⟩⟩
  · rw [applyFrame_table (ownEffect_yield body full), applyYield, if_pos held, giveUp, removeHolder_eq held]
    rfl
  · rw [applyFrame_table (ownEffect_yield body full), applyYield, if_neg (ne_true_of_eq_false notHeld)]
  · rw [applyFrame_table (ownEffect_expire body full), applyExpire, giveUp, removeHolder_eq held]
    rfl
  · rintro before e rest queue station ticket others
    have target_e : isTarget f.sender target e = true := by simp [isTarget, station, ticket]
    have not_before : ∀ a ∈ before, ¬isTarget f.sender target a = true := fun a ha => by simp [isTarget, others a ha]
    have erased : r.locks[k].queue.eraseP (isTarget f.sender target) = before ++ rest := by
      rw [queue, List.eraseP_append_right _ not_before, List.eraseP_cons_of_pos target_e]
    have some_target : r.locks[k].queue.any (isTarget f.sender target) = true := by
      rw [queue, List.any_append, List.any_cons, target_e, Bool.true_or, Bool.or_true]
    rw [applyFrame_table (ownEffect_recall body full), applyRecall, if_pos some_target, erased]
    rfl
  · intro none_target
    have no_target : ¬r.locks[k].queue.any (isTarget f.sender target) = true := by
      rw [List.any_eq_true]
      rintro ⟨e, he, target_e⟩
      simp only [isTarget, Bool.and_eq_true, beq_iff_eq] at target_e
      exact (none_target e he).elim (· target_e.1) (· target_e.2)
    refine ⟨fun held => ?_, fun notHeld => ?_⟩
    · rw [applyFrame_table (ownEffect_recall body full), applyRecall, if_neg no_target, if_pos held]
    · rw [applyFrame_table (ownEffect_recall body full), applyRecall, if_neg no_target, if_neg (ne_true_of_eq_false notHeld)]

/-! ### Departures (R24, R89, R93) -/

theorem departed_locks (c : TableChange) :
    (cancelJoinOf x (setRoster x .absent (Applied.ofTable r c))).replica.locks = c.1 := by
  unfold cancelJoinOf
  split
  · split <;> rfl
  · rfl

theorem depart_locks (x : StationId) (r : Replica) : (depart x r).replica.locks = (release x r.locks).1 :=
  departed_locks _

theorem has_releaseLock {rec : LockRecord} (k : LockId) (lawful : lawfulLock rec = true) {y : StationId}
    (held : has (releaseLock x k rec).1.holders y = true) :
    has rec.holders y = true ∨ ∃ e ∈ rec.queue, e.station = y := by
  exact standsIn_iff.1 ((releaseLock_shrunk k x lawful).stands y (standsIn_iff.2 (.inl held)))

/-- Settles O53: the application is the departure, whose locks are released one by one. -/
theorem departedStationIsReleased : Obligations.DepartedStationIsReleased := by
  unfold Obligations.DepartedStationIsReleased
  intro f x r frame full lawful
  have effect : ownEffect f r = remove x r := by
    obtain ⟨body, sender⟩ | ⟨body, rfl⟩ := frame
    · exact ownEffect_evict body sender
    · exact ownEffect_leave body
  have roster : (applyFrame f r).replica.roster = (remove x r).replica.roster := by rw [applyFrame_eq effect]
  have locks (k : LockId) : (applyFrame f r).replica.locks[k] = (releaseLock x k r.locks[k]).1 := by
    rw [applyFrame_eq effect, remove_of_full full, ← release_getElem]
    exact congrArg (·[k]) (depart_locks x r)
  rw [roster]
  refine ⟨remove_roster x r, fun k => ?_, fun k y => ?_⟩ <;> rw [locks k]
  · exact (releaseLock_shrunk k x (lawful k)).lawful
  · exact ⟨releaseLock_not_stands k x (lawful k), releaseLock_keeps_holder k (lawful k), has_releaseLock k (lawful k),
      fun e he => (releaseLock_shrunk k x (lawful k)).queue.subset he⟩

/-! ### ENTRY and ADMIT (R103, R104, R110) -/

section Entry

variable {i : Interval} {a : Applied} {j m : StationId}

theorem decideEntry_config (answers : answering a.replica.roster = some m) (config : a.replica.interval ≠ some i) :
    decideEntry j i a = { a with entry := some (.declined m j .config) } := by
  simp only [decideEntry, answers, if_pos config]

theorem decideEntry_joinBusy (answers : answering a.replica.roster = some m) (config : a.replica.interval = some i)
    (open_ : a.replica.join ≠ none) : decideEntry j i a = { a with entry := some (.declined m j .joinBusy) } := by
  simp only [decideEntry, answers, config, ne_eq, not_true_eq_false, if_false, Option.isSome_iff_ne_none.2 open_, if_true]

theorem decideEntry_opened (answers : answering a.replica.roster = some m) (config : a.replica.interval = some i)
    (noJoin : a.replica.join = none) :
    decideEntry j i a =
      { replica :=
          { a.replica with roster := put a.replica.roster j .pending, join := some { joiner := j, source := m } },
        events := a.events, changes := a.changes ++ [{ id := j, was := a.replica.roster[j], now := .pending }],
        entry := some (.opened m j) } := by
  simp [decideEntry, answers, config, noJoin, setRoster]

end Entry

/-- What the settling of an earlier standing leaves, in the four cases of it (R103). -/
theorem remove_eq {base : Replica} {told : List TableEvent} {changes : List RosterChange}
    (h :
      (r.roster[x] = .absent ∧ base = r ∧ told = [] ∧ changes = []) ∨
      (r.roster[x] = .pending ∧ base = { r with roster := put r.roster x .absent, join := none } ∧ told = [] ∧
        changes = [{ id := x, was := .pending, now := .absent }]) ∨
      (r.roster[x] = .full ∧ (∀ j, r.join = some j → j.source ≠ x) ∧
        base = { r with locks := (release x r.locks).1, roster := put r.roster x .absent } ∧
        told = (release x r.locks).2 ∧ changes = [{ id := x, was := .full, now := .absent }]) ∨
      (r.roster[x] = .full ∧
        ∃ j : StationId, r.join = some { joiner := j, source := x } ∧ r.roster[j] = .pending ∧
          base =
            { r with
              locks := (release x r.locks).1, roster := put (put r.roster x .absent) j .absent, join := none } ∧
          told = (release x r.locks).2 ∧
          changes = [{ id := x, was := .full, now := .absent }, { id := j, was := .pending, now := .absent }])) :
    remove x r = { replica := base, events := told, changes := changes, entry := none } := by
  obtain ⟨state, rfl, rfl, rfl⟩ | ⟨state, rfl, rfl, rfl⟩ | ⟨state, notSource, rfl, rfl, rfl⟩ |
    ⟨state, j, join, pending, rfl, rfl, rfl⟩ := h
  · exact remove_of_absent state
  · exact remove_of_pending state
  · rw [remove_of_full state, ← state]
    exact departed_of_not_source _ notSource
  · have other : x ≠ j := by
      rintro rfl
      rw [state] at pending
      cases pending
    rw [remove_of_full state, ← state, ← pending]
    exact departed_of_source _ join other

/-- An ENTRY is decided on the replica that the settling leaves, and the sequence advances. -/
theorem applyFrame_entry {i : Interval} {base : Applied} (body : f.body = .entry i) (settled : remove f.sender r = base) :
    applyFrame f r =
      { decideEntry f.sender i base with
        replica := { (decideEntry f.sender i base).replica with sequence := r.sequence + 1 } } := by
  have own : ownEffect f r = decideEntry f.sender i base := by rw [ownEffect_entry body, settled]
  have sequence := (ownEffect_sameGroup f r).2.2
  rw [own] at sequence
  rw [applyFrame_eq own, sequence]

theorem remove_absent_of_eq {base : Applied} (settled : remove x r = base) : base.replica.roster[x] = .absent := by
  rw [← settled]
  exact remove_roster x r

/-- Settles O54: the earlier standing settled, then the decision of the lowest FULL ID; ADMIT by the joiner's state. -/
theorem entryAndAdmitChangeTheRoster : Obligations.EntryAndAdmitChangeTheRoster := by
  unfold Obligations.EntryAndAdmitChangeTheRoster
  intro f r
  refine ⟨fun i m base told changes body standing full lowest => ?_, fun j n body => ⟨fun pending => ?_, fun other => ?_⟩⟩
  · have settled := remove_eq standing
    have absent := remove_absent_of_eq settled
    have answers : answering base.roster = some m := answering_eq full lowest
    refine ⟨fun config => ?_, fun config join => ?_, fun config join => ?_⟩ <;> rw [applyFrame_entry body settled]
    · rw [decideEntry_config answers config]
    · rw [decideEntry_joinBusy answers config join]
    · rw [decideEntry_opened answers config join, absent]
  · rw [applyFrame_eq (ownEffect_admission body), applyAdmit_of_pending pending]
  · exact applyFrame_nothing ((ownEffect_admission body).trans (applyAdmit_of_not_pending other))

end Sys2Proof.Machine
end

section
/-!
SUPPORT. What a command can do to the station, said once: the elementary changes every meaning is made of, each with the condition
under which the meanings make it. An invariant that each of these keeps is kept by every command.
-/

namespace Sys2Proof.Machine

/-- `s` with what no invariant speaks of taken from `t`: port, storage, fault record, counters, the free count, and of the round
everything but the frame in flight, the reception and the solo-veto count with its suppression. -/
def withInert (t s : State) : State :=
  { s with
    port := t.port, ecc := t.ecc, lateDamage := t.lateDamage, fault := t.fault, counters := t.counters,
    freeCount := t.freeCount,
    round := { s.round with
      pointer := t.round.pointer, phase := t.round.phase, chosen := t.round.chosen, requestMark := t.round.requestMark,
      won := t.round.won, mismatches := t.round.mismatches } }

/-- `t` differs from `s` at most in what no invariant speaks of. -/
def Inert (s t : State) : Prop := t = withInert t s

theorem Inert.eq {s t : State} (h : Inert s t) : t = withInert t s := h

/-- The station is in a join. -/
abbrev Joining (s : State) : Prop := s.life = .entering ∨ s.life = .copying

/-- The station is a member, or holds what only a member holds. -/
def ActsAsMember (s : State) : Prop :=
  s.life = .member ∨ s.hostQueue ≠ [] ∨ s.leases ≠ [] ∨ s.expireSet ≠ noLocks ∨ s.monitor ≠ .stopped ∨ s.copy ≠ none

/-- What a change of the join state keeps: target, pending ENTRY and the copy received; the tracked count is not lost, and the
catch-up queue grows only up to its size. -/
structure JoinKept (j j' : JoinState) : Prop where
  target : j'.target = j.target
  tracked : j.tracked.isSome = true → j'.tracked.isSome = true
  entryPending : j'.entryPending = j.entryPending
  source : j'.source = j.source
  rosterCopy : j'.rosterCopy = j.rosterCopy
  lockCopies : j'.lockCopies = j.lockCopies
  catchUp : j'.catchUp.length ≤ max j.catchUp.length Config.catchUpSize

/-- The frame in flight has landed: its outcome is being dealt with. -/
def landed (s : State) : State := { s with round := { s.round with inFlight := none } }

/-- Solo-veto suppression begins (R66). -/
def suppress (s : State) : State := { s with round := { s.round with suppressed := true } }

/-- The candidate is targeted (R98). -/
def target (c : Candidate) (s : State) : State :=
  { s with
    life := .entering, listening := .stopped,
    join := { JoinState.none with target := some c.tag, tracked := some c.tracked, entryPending := true } }

/-- The copy begins: COPYING with the roster copy and its source (R114). -/
def beginCopy (f : Frame) (c : RosterCopy) (s : State) : State :=
  { s with
    life := .copying,
    join := { s.join with
      source := some f.sender, rosterCopy := some c, joinTimer := none, stallTimer := configBeats 16 s,
      tracked := some (c.cut + s.join.catchUpCount) } }

/-- Suppression ends with the rejoin timer, and with it the count that reached the limit (R66, R133). -/
def endRejoin (s : State) : State :=
  { s with
    rejoin := none,
    round := { s.round with
      soloVetoes := if s.round.suppressed then 0 else s.round.soloVetoes, suppressed := false } }

/-- One elementary change of the station. `F` is what is known of a frame another station sent; `closing` tells the changes that
only the close of a verdict window makes from those that only the other commands make. -/
inductive Change (F : Frame → Prop) (closing : Bool) (s : State) : State → Prop
  | inert {t : State} (h : Inert s t) : Change F closing s t
  -- the life cycle
  | exclude (r : ExclusionReason) : Change F closing s (exclude r s)
  | changeReason (r : ExclusionReason) (life : s.life = .excluded) : Change F closing s (changeReason r s)
  | enterHalted (r : StopReason) (stop : Option StopReason) (h : stop ≠ some .host) :
    Change F closing s (enterHalted r stop s)
  | leaveJoin (life : Joining s) : Change F closing s (enterListening true s)
  | clearReplica (life : s.life = .copying) : Change F closing s (clearReplica s)
  | pendLeave (src : LeaveSource) (life : s.life = .member ∨ Joining s) :
    Change F closing s { s with pendingLeave := some src }
  | clearStop : Change F closing s { s with pendingStop := none }
  | pendStop (r : StopReason) (life : s.life ≠ .halted) : Change F closing s { s with pendingStop := some r }
  -- the host side
  | addRecord (r : Record) : Change F closing s (addRecord r s)
  | takeRecord {r : Record} {rest : List Record} (h : s.records = r :: rest) :
    Change F closing s { s with records := rest }
  | placeTicket (t : TicketId) (p : Place) : Change F closing s (placeTicket t p s)
  | freeTicket (t : TicketId) : Change F closing s (freeTicket t s)
  | allocate (t : TicketId) (k : Ticket) (life : s.life = .member) :
    Change F closing s { s with tickets := put s.tickets t (some k) }
  | hostQueue (q : List HostFrame) (n : Retry) (w : Timer) (sub : q.Sublist s.hostQueue)
    (retry : n = s.hostRetry ∨ n = .zero) (wait : w = s.busyWait ∨ w = none) :
    Change F closing s { s with hostQueue := q, hostRetry := n, busyWait := w }
  | appendHost (f : HostFrame) (life : s.life = .member) (room : s.hostQueue.length < Config.hostQueueSize) :
    Change F closing s { s with hostQueue := s.hostQueue ++ [f] }
  | attempt (h : s.hostRetry.attempts + 1 < Config.attemptLimit) :
    Change F closing s { s with hostRetry := { s.hostRetry with attempts := s.hostRetry.attempts + 1 } }
  | busy (w : Timer) (h : s.hostRetry.busy + 1 < Config.busyLimit) (acts : ActsAsMember s) :
    Change F closing s { s with hostRetry := { s.hostRetry with busy := s.hostRetry.busy + 1 }, busyWait := w }
  | inbound (n : InboundNote) (room : s.inbound.length < Config.inboundSize) :
    Change F closing s { s with inbound := s.inbound ++ [n] }
  | takeNote {n : InboundNote} {rest : List InboundNote} (h : s.inbound = n :: rest) :
    Change F closing s { s with inbound := rest }
  -- leases, roster monitor, entry engine and replica of a member
  | leases (ls : List Lease) (length : ls.length ≤ s.leases.length) : Change F closing s { s with leases := ls }
  | reserve (l : Lease) (life : s.life = .member) (room : s.leases.length < Config.leaseTableSize) :
    Change F closing s { s with leases := s.leases ++ [l] }
  | expireSet (v : LockSet) (acts : ActsAsMember s) : Change F closing s { s with expireSet := v }
  | monitor (m : RosterMonitor) (acts : ActsAsMember s) : Change F closing s { s with monitor := m }
  | declines (ds : List Decline) (sub : ds.Sublist s.declines) : Change F closing s { s with declines := ds }
  | decline (d : Decline) (acts : ActsAsMember s) (fresh : ∀ e ∈ s.declines, e.joiner ≠ d.joiner) :
    Change F closing s { s with declines := s.declines ++ [d] }
  | endCopy : Change F closing s { s with copy := none, copyRetry := .zero }
  | keepCopy {c : CopyState} (c' : CopyState) (n : Retry) (copy : s.copy = some c) (shadow : c'.shadow = c.shadow)
    (retry : n = s.copyRetry ∨ n = .zero) : Change F closing s { s with copy := some c', copyRetry := n }
  | newCopy (j : StationId) (acts : ActsAsMember s) :
    Change F closing s { s with copy := some (newCopy j s.replica), copyRetry := .zero }
  | copyAttempt (h : s.copyRetry.attempts + 1 < Config.attemptLimit) :
    Change F closing s { s with copyRetry := { s.copyRetry with attempts := s.copyRetry.attempts + 1 } }
  | applied (f : Frame) (life : s.life = .member) :
    Change F closing s { s with replica := (applyFrame f s.replica).replica }
  -- the joiner
  | join (j : JoinState) (life : Joining s) (kept : JoinKept s.join j) : Change F closing s { s with join := j }
  | entryAccepted {fl : InFlight} (flight : s.round.inFlight = some fl) (source : fl.offer.source = .entry)
    (wanted : fl.discarded = false) : Change F closing s (entryAccepted (landed s))
  | beginCopy (f : Frame) (c : RosterCopy) (life : s.life = .entering) : Change F closing s (beginCopy f c s)
  | lockCopy (f : Frame) (k : LockId) (r : LockRecord) (life : s.life = .copying) (known : F f)
    (body : f.body = .copyLock k r) :
    Change F closing s { s with join := { s.join with
      lockCopies := put s.join.lockCopies k (some r), stallTimer := configBeats 16 s } }
  | admitted (c : RosterCopy) (fs : List Frame) (life : s.life = .copying) (flight : s.round.inFlight = none) :
    Change F closing s (admitted (applyAll fs (installed c s)) s)
  -- the listener
  | listening (l : Listening) (life : s.life = .listening) : Change F closing s { s with listening := l }
  | target (c : Candidate) (life : s.life = .listening) : Change F closing s (target c s)
  -- the close alone
  | landed (close : closing = true) : Change F closing s (landed s)
  | suppress (close : closing = true) : Change F closing s (suppress s)
  -- the other commands alone
  | found (other : closing = false) (life : s.life = .listening) : Change F closing s (found s)
  | start (c : StartConfig) (other : closing = false) (life : s.life = .off ∨ s.life = .excluded) :
    Change F closing s (enterListening false (configure c s))
  | restart (other : closing = false) (life : s.life = .halted) :
    Change F closing s (enterListening false (clearForRestart s))
  | rejoin (other : closing = false) (life : s.life = .excluded) :
    Change F closing s (enterListening false (endRejoin s))
  | placeRequest (other : closing = false) : Change F closing s (placeRequest s)
  | closeRequest (slots : RequestSlots) (other : closing = false) : Change F closing s (closeRequestWindow slots s)
  | receiveFrame (line : List Byte) (other : closing = false) : Change F closing s (receiveFrame line s)

/-- One elementary change after another. -/
abbrev Changes (F : Frame → Prop) (closing : Bool) : State → State → Prop := Relation.ReflTransGen (Change F closing)

variable {F : Frame → Prop} {closing : Bool} {s t u : State}

theorem Change.changes (h : Change F closing s t) : Changes F closing s t := .single h

theorem Inert.changes (h : Inert s t) : Changes F closing s t := .single (.inert h)

/-- What each elementary change keeps, every run of them keeps. -/
theorem Changes.keep {P : State → Prop} (h : Changes F closing s t) (keep : ∀ {u v}, Change F closing u v → P u → P v)
    (start : P s) : P t := by
  induction h with
  | refl => exact start
  | tail _ last ih => exact keep last ih

/-! ### The shared operations -/

theorem recordFault_inert (kind : FaultKind) (n : Half) (sender : Option StationId) (s : State) :
    Inert s (recordFault kind n sender s) := by
  rw [recordFault_eq]
  rfl

theorem countVetoCast_inert (s : State) : Inert s (countVetoCast s) := rfl

theorem countOwnVoided_inert (s : State) : Inert s (countOwnVoided s) := rfl

theorem countDropped_inert (s : State) : Inert s (countDropped s) := rfl

theorem afterReads_inert (words : List StoreWord) (s : State) : Inert s (afterReads words s) := rfl

theorem makeRecord_changes (r : Record) (s : State) : Changes F closing s (makeRecord r s) := by
  unfold makeRecord
  split
  · exact (Change.placeTicket _ _).changes.tail (.addRecord r)
  · exact (Change.addRecord r).changes

theorem storageFault_changes (sender : Option StationId) (s : State) : Changes F closing s (storageFault sender s) := by
  unfold storageFault
  split
  · exact (recordFault_inert _ _ _ s).changes.tail (.enterHalted _ _ (by simp))
  · exact (recordFault_inert _ _ _ s).changes.tail (.exclude _)

theorem popHead_changes (s : State) : Changes F closing s (popHead s) :=
  (Change.hostQueue _ _ _ (List.tail_sublist _) (.inr rfl) (.inr rfl)).changes

theorem cancelLease_changes (t : TicketId) (s : State) : Changes F closing s (cancelLease t s) :=
  (Change.leases _ (List.length_filter_le _ _)).changes

theorem lookupHeads_changes (q : List HostFrame) (s : State) : Changes F closing s (lookupHeads q s) := by
  induction q generalizing s with
  | nil => exact .refl
  | cons f rest ih =>
    cases f with
    | note d tp p k =>
      have reads : Changes F closing s (afterReads [.roster] s) := (afterReads_inert _ s).changes
      unfold lookupHeads
      split
      · dsimp only
        split
        · exact reads
        · exact reads.trans ((popHead_changes _).trans ((makeRecord_changes _ _).trans (ih _)))
      · exact reads.trans (storageFault_changes none _)
    | _ => exact .refl

theorem lookupHead_changes (s : State) : Changes F closing s (lookupHead s) := lookupHeads_changes s.hostQueue s

theorem leaveJoin_changes (life : Joining s) : Changes F closing s (leaveJoin s) := by
  unfold leaveJoin
  split
  · exact (Change.exclude _).changes
  · exact (Change.leaveJoin life).changes

theorem takeEnding_changes (life : Joining s) : Changes F closing s (takeEnding s) := by
  unfold takeEnding
  split
  · exact (Change.exclude _).changes
  · exact leaveJoin_changes life

theorem pendLeave_changes (src : LeaveSource) (life : s.life = .member ∨ Joining s) :
    Changes F closing s (pendLeave src s) := by
  unfold pendLeave
  split
  · exact .refl
  · exact (Change.pendLeave src life).changes

theorem pendAbort_changes (e : Ending) (life : Joining s) : Changes F closing s (pendAbort e s) :=
  (Change.join (pendAbort e s).join life
    { target := rfl, tracked := id, entryPending := rfl, source := rfl, rosterCopy := rfl, lockCopies := rfl,
      catchUp := Nat.zero_le _ }).changes

theorem abortJoin_changes (kind : FaultKind) (sender : Option StationId) (life : Joining s) :
    Changes F closing s (abortJoin kind sender s) := by
  have life' : (recordFault kind (ownCount s) sender s).life = s.life := by rw [recordFault_eq]
  have recorded : Changes F closing s (recordFault kind (ownCount s) sender s) := (recordFault_inert _ _ _ s).changes
  have joining : Joining (recordFault kind (ownCount s) sender s) := by
    rw [Joining, life']
    exact life
  unfold abortJoin
  dsimp only
  split
  · exact recorded.trans ((pendAbort_changes _ joining).trans (pendLeave_changes _ (.inr joining)))
  · exact recorded.trans (leaveJoin_changes joining)

/-! ### Step 3 of a close: the own frame's outcome -/

theorem dropHead_changes (f : HostFrame) (reason : Undelivered) (s : State) :
    Changes F closing s (dropHead f reason s) := by
  have cancel (s : State) : Changes F closing s (cancelForDrop f s) := by
    unfold cancelForDrop
    split
    · exact cancelLease_changes _ s
    · exact .refl
  exact (countDropped_inert s).changes.trans ((popHead_changes _).trans ((cancel _).trans
    ((makeRecord_changes _ _).trans (lookupHead_changes _))))

theorem hostRetried_changes (f : HostFrame) (c : VoidClass) (acts : ActsAsMember s) :
    Changes F closing s (hostRetried f c s) := by
  have attempt : Changes F closing s (hostAttempt f c s) := by
    unfold hostAttempt
    split
    · exact dropHead_changes f _ s
    · next below => exact (Change.attempt (Nat.lt_of_not_le below)).changes
  have busy : Changes F closing s (hostBusy f s) := by
    unfold hostBusy
    split
    · exact dropHead_changes f _ s
    · next below => exact (Change.busy _ (Nat.lt_of_not_le below) acts).changes
  cases c with
  | veto => exact attempt
  | noAnswer => exact attempt
  | busy => exact busy
  | stale => exact .refl

theorem noteVoided_changes (f : HostFrame) (d : StationId) (k : TicketId) (c : VoidClass) (queued : s.hostQueue ≠ []) :
    Changes F closing s (noteVoided f d k c s) := by
  have reads : Changes F closing s (afterReads [.roster] s) := (afterReads_inert _ s).changes
  unfold noteVoided
  dsimp only
  split
  · exact reads.trans (storageFault_changes none _)
  split
  · exact reads.trans (hostRetried_changes f c (.inr (.inl queued)))
  · exact reads.trans ((popHead_changes _).trans ((makeRecord_changes _ _).trans (lookupHead_changes _)))

theorem hostVoided_changes (c : VoidClass) (s : State) : Changes F closing s (hostVoided c s) := by
  unfold hostVoided
  split
  · next hq => exact noteVoided_changes _ _ _ c (by rw [hq]; exact List.cons_ne_nil _ _)
  · next hq => exact hostRetried_changes _ c (.inr (.inl (by rw [hq]; exact List.cons_ne_nil _ _)))
  · exact .refl

theorem hostAccepted_changes (s : State) : Changes F closing s (hostAccepted s) := by
  unfold hostAccepted
  split
  · exact (popHead_changes s).trans ((makeRecord_changes _ _).trans (lookupHead_changes _))
  · exact (popHead_changes s).trans (lookupHead_changes _)
  · exact .refl

theorem advanceCopy_changes (s : State) : Changes F closing s (advanceCopy s) := by
  unfold advanceCopy
  split
  · next c copy =>
    cases frames : c.frames.tail.isEmpty with
    | true => exact Change.endCopy.changes
    | false => exact (Change.keepCopy { c with frames := c.frames.tail } _ copy rfl (.inr rfl)).changes
  · exact .refl

theorem copyVoided_changes (c : VoidClass) (s : State) : Changes F closing s (copyVoided c s) := by
  have drop : Changes F closing s (dropCopyFrame s) := by
    unfold dropCopyFrame
    split
    · next c copy =>
      split
      · have evict : Changes F closing s { s with monitor := _ } :=
          (Change.monitor { s.monitor with pendingEvict := addTo s.monitor.pendingEvict c.joiner }
            (.inr (.inr (.inr (.inr (.inr (by rw [copy]; exact Option.some_ne_none c))))))).changes
        exact (evict.tail .endCopy).tail (.inert (countDropped_inert _))
      · exact (advanceCopy_changes s).tail (.inert (countDropped_inert _))
    · exact .refl
  unfold copyVoided
  split
  · split
    · exact drop
    · next below => exact (Change.copyAttempt (Nat.lt_of_not_le below)).changes
  · exact .refl

theorem leaveEnds_changes (s : State) : Changes F closing s (leaveEnds s) := by
  unfold leaveEnds
  split
  · next life => exact takeEnding_changes (.inl life)
  · next life => exact takeEnding_changes (.inr life)
  · split <;> exact (Change.exclude _).changes

theorem dropFrom_replicate {n : Nat} (i : Fin n) : dropFrom (Vector.replicate n false) i = Vector.replicate n false := by
  apply Vector.ext
  intro j hj
  rw [show (dropFrom (Vector.replicate n false) i)[j] = (dropFrom (Vector.replicate n false) i)[(⟨j, hj⟩ : Fin n)] from rfl,
    dropFrom, getElem_put]
  simp

/-- An ID leaves the pending-evict set: no change where the monitor is stopped. -/
theorem dropEvict_changes (x : StationId) (s : State) :
    Changes F closing s { s with monitor := { s.monitor with pendingEvict := dropFrom s.monitor.pendingEvict x } } := by
  by_cases stopped : s.monitor = .stopped
  · have same : ({ s.monitor with pendingEvict := dropFrom s.monitor.pendingEvict x } : RosterMonitor) = s.monitor := by
      rw [stopped]
      simp only [RosterMonitor.stopped, dropFrom_replicate]
    rw [same]
  · exact (Change.monitor _ (.inr (.inr (.inr (.inr (.inl stopped)))))).changes

/-- A lock leaves the EXPIRE set: no change where it is empty. -/
theorem dropExpire_changes (k : LockId) (s : State) :
    Changes F closing s { s with expireSet := dropFrom s.expireSet k } := by
  by_cases empty : s.expireSet = noLocks
  · have same : dropFrom s.expireSet k = s.expireSet := by rw [empty, noLocks, dropFrom_replicate]
    rw [same]
  · exact (Change.expireSet _ (.inr (.inr (.inr (.inl empty))))).changes

theorem sourceAccepted_changes {o : Offer} (notEntry : o.source ≠ .entry) (s : State) :
    Changes F closing s (sourceAccepted o s) := by
  unfold sourceAccepted
  split
  · exact Change.clearStop.changes
  · exact leaveEnds_changes s
  · split
    · exact dropEvict_changes _ s
    · exact .refl
  · split
    · exact dropExpire_changes _ s
    · exact .refl
  · next entry => exact absurd entry notEntry
  · exact (Change.declines _ (List.tail_sublist _)).changes
  · exact advanceCopy_changes s
  · exact hostAccepted_changes s
  · exact .refl

theorem sourceVoided_changes (o : Offer) (c : VoidClass) (stale : Bool) (s : State) :
    Changes F closing s (sourceVoided o c stale s) := by
  unfold sourceVoided
  split
  · exact hostVoided_changes c s
  · exact copyVoided_changes c s
  · split
    · exact (Change.exclude _).changes
    · exact .refl
  · split
    · exact (Change.exclude _).changes
    · exact .refl
  all_goals exact .refl

theorem staleOnOwn_changes (slots : VerdictSlots) (s : State) : Changes F closing s (staleOnOwn slots s) := by
  unfold staleOnOwn
  split
  · exact (recordFault_inert _ _ _ s).changes.tail (.exclude _)
  · exact .refl

theorem closeRequestWindow_eq (slots : RequestSlots) (s : State) :
    closeRequestWindow slots s = { s with round := (closeRequestWindow slots s).round } := by
  unfold closeRequestWindow closeEmptyWindow
  split
  · split <;> rfl
  · rfl

theorem receiveFrame_eq (line : List Byte) (s : State) :
    receiveFrame line s = { s with round := (receiveFrame line s).round } := by
  unfold receiveFrame
  split <;> rfl

theorem entryAccepted_eq (s : State) :
    entryAccepted s = { s with join := (entryAccepted s).join, pendingLeave := (entryAccepted s).pendingLeave } := by
  unfold entryAccepted pendLeave
  dsimp only
  split
  · split <;> rfl
  · rfl

/-- Elementary changes, the own frame landing on the way. -/
def Lands (F : Frame → Prop) (s t : State) : Prop :=
  ∃ u, u.round.inFlight = none ∧ Changes F true s u ∧ Changes F true u t

theorem landed_lands (rest : Changes F true (landed s) t) : Lands F s t :=
  ⟨landed s, rfl, (Change.landed rfl).changes, rest⟩

/-- The own frame lands first; what follows are elementary changes (R61). -/
theorem closeOwnFrame_lands (slots : VerdictSlots) (s : State) : Lands F s (closeOwnFrame slots s) := by
  unfold closeOwnFrame
  split
  case h_2 none => exact ⟨s, none, .refl, .refl⟩
  next fl flight =>
    change Lands F s (staleOnOwn slots (passOutcome fl slots (countIfVoid (verdictOf fl.frame.body slots) (landed s))))
    have counted (v : Verdict) : Changes F true (landed s) (countIfVoid v (landed s)) := by
      unfold countIfVoid
      split
      · exact .refl
      · exact (countOwnVoided_inert _).changes
    by_cases discarded : fl.discarded = true
    · rw [passOutcome, if_pos discarded]
      exact landed_lands ((counted _).trans (staleOnOwn_changes slots _))
    rw [passOutcome, if_neg discarded]
    cases verdict : verdictOf fl.frame.body slots with
    | accepted =>
      by_cases entry : fl.offer.source = .entry
      · have accepted : sourceAccepted fl.offer (countIfVoid .accepted (landed s)) = entryAccepted (landed s) := by
          simp only [countIfVoid, if_true, sourceAccepted, entry]
        dsimp only
        rw [accepted]
        refine ⟨entryAccepted (landed s), ?_, ?_, staleOnOwn_changes slots _⟩
        · rw [entryAccepted_eq]
          rfl
        · exact (Change.entryAccepted flight entry (by simpa using discarded)).changes
      · exact landed_lands (((counted .accepted).trans (sourceAccepted_changes entry _)).trans (staleOnOwn_changes slots _))
    | void c =>
      exact landed_lands (((counted (.void c)).trans (sourceVoided_changes _ c _ _)).trans (staleOnOwn_changes slots _))

theorem closeOwnFrame_changes (slots : VerdictSlots) (s : State) : Changes F true s (closeOwnFrame slots s) := by
  obtain ⟨u, -, lands, rest⟩ := closeOwnFrame_lands (F := F) slots s
  exact lands.trans rest

/-! ### Step 4: the limits -/

theorem duplicateIdAction_changes (s : State) : Changes F closing s (duplicateIdAction s) := by
  unfold duplicateIdAction
  split
  · exact (Change.exclude _).changes
  · exact (Change.exclude _).changes
  · exact (Change.exclude _).changes
  · exact (Change.exclude _).changes
  · next life => exact (Change.changeReason _ life).changes
  · exact Change.clearStop.changes
  · exact .refl

theorem soloVetoAction_changes (s : State) : Changes F closing s (soloVetoAction s) := by
  unfold soloVetoAction
  split
  · next life => exact (Change.pendLeave _ (.inl life)).changes
  · next life =>
    split
    · exact (Change.pendLeave _ (.inr (.inl life))).changes
    · exact (Change.exclude _).changes
  · next life =>
    split
    · exact (Change.pendLeave _ (.inr (.inr life))).changes
    · exact (Change.exclude _).changes
  · exact (Change.exclude _).changes
  · next life => exact (Change.changeReason _ life).changes
  · exact .refl
  · exact .refl

theorem soloVetoLimitReached_changes (s : State) : Changes F true s (soloVetoLimitReached s) :=
  ((recordFault_inert _ _ _ s).changes.tail (.suppress rfl)).trans (soloVetoAction_changes _)

theorem closeLimits_changes (r : Reception) (solo : Bool) (s : State) : Changes F true s (closeLimits r solo s) := by
  have mismatch (s : State) : Changes F true s (mismatchLimitReached s) :=
    (recordFault_inert _ _ _ s).changes.trans (duplicateIdAction_changes _)
  have duplicate (s : State) : Changes F true s (duplicateSender s) := by
    unfold duplicateSender
    split
    · exact .refl
    · exact (recordFault_inert _ _ _ s).changes.trans (duplicateIdAction_changes _)
  have guarded {act : State → State} (b : Bool) (h : ∀ s, Changes F true s (act s)) (s : State) :
      Changes F true s (if b then act s else s) := by
    cases b with
    | true => exact h s
    | false => exact .refl
  exact (guarded r.mismatchReached mismatch s).trans
    ((guarded r.duplicate duplicate _).trans (guarded solo soloVetoLimitReached_changes _))

/-! ### Step 5 at a member -/

theorem Told.life (h : Told s t) : t.life = s.life := by rw [h.eq]; rfl

theorem tellEvent_changes (e : TableEvent) (s : State) : Changes F closing s (tellEvent e s) := by
  unfold tellEvent
  split
  case isFalse => exact .refl
  have kept (p : Lease → Bool) : Changes F closing s { s with leases := s.leases.filter p } :=
    (Change.leases _ (List.length_filter_le _ _)).changes
  have mapped (g : Lease → Lease) : Changes F closing s { s with leases := s.leases.map g } :=
    (Change.leases _ (by rw [List.length_map])).changes
  have ended (k : LockId) : Changes F closing s (endLease k s) := (kept _).trans (dropExpire_changes k _)
  cases e with
  | granted _ t k g => exact (mapped _).trans (makeRecord_changes _ _)
  | refused _ t k reason => exact (cancelLease_changes t s).trans (makeRecord_changes _ _)
  | waits _ t _ => exact (Change.placeTicket _ _).changes
  | yielded _ t k => exact (ended k).trans (makeRecord_changes _ _)
  | notHeld _ t k => exact (ended k).trans (makeRecord_changes _ _)
  | recalled _ t k => exact (cancelLease_changes t s).trans (makeRecord_changes _ _)
  | recallDone _ t k => exact makeRecord_changes _ s
  | tooLate _ t k => exact makeRecord_changes _ s
  | notWaiting _ t k => exact makeRecord_changes _ s
  | expired _ k => exact ((mapped _).trans (dropExpire_changes k _)).trans (makeRecord_changes _ _)

theorem tellEvents_changes (es : List TableEvent) (s : State) : Changes F closing s (tellEvents es s) := by
  induction es generalizing s with
  | nil => exact .refl
  | cons e es ih => exact (tellEvent_changes e s).trans (ih _)

theorem tellMonitor_changes (cs : List RosterChange) (life : s.life = .member) :
    Changes F closing s (tellMonitor cs s) := by
  induction cs generalizing s with
  | nil => exact .refl
  | cons c cs ih =>
    unfold tellMonitor
    split
    · exact ih life
    · exact (Change.monitor _ (.inl life)).changes.trans (ih (by exact life))

theorem evictSettled_changes (f : Frame) (s : State) : Changes F closing s (evictSettled f s) := by
  unfold evictSettled
  split
  · exact dropEvict_changes _ s
  · exact dropEvict_changes _ s
  · exact .refl

theorem rosterRecord_changes (cs : List RosterChange) (s : State) : Changes F closing s (rosterRecord cs s) := by
  unfold rosterRecord
  split
  · exact .refl
  · exact (Change.addRecord _).changes

theorem withdrawDecline_changes (f : Frame) (s : State) : Changes F closing s (withdrawDecline f s) := by
  unfold withdrawDecline
  split
  · exact (Change.declines _ List.filter_sublist).changes
  · exact .refl

theorem abandonCopy_changes (cs : List RosterChange) (s : State) : Changes F closing s (abandonCopy cs s) := by
  unfold abandonCopy
  split
  · split
    · exact Change.endCopy.changes
    · exact .refl
  · exact .refl

theorem abandonCopy_declines (cs : List RosterChange) (s : State) : (abandonCopy cs s).declines = s.declines := by
  unfold abandonCopy
  split
  · split <;> rfl
  · rfl

theorem withdrawDecline_fresh {f : Frame} {i : Interval} (body : f.body = .entry i) (s : State) :
    ∀ d ∈ (withdrawDecline f s).declines, d.joiner ≠ f.sender := by
  simp [withdrawDecline, body]

theorem answerEntry_changes {o : Option EntryOutcome} (life : s.life = .member)
    (fresh : ∀ m j reason, o = some (.declined m j reason) → ∀ d ∈ s.declines, d.joiner ≠ j) :
    Changes F closing s (answerEntry o s) := by
  unfold answerEntry
  split
  · next m j reason =>
    split
    · exact (Change.decline { joiner := j, reason := reason } (.inl life) (fresh m j reason rfl)).changes
    · exact .refl
  · next m j =>
    split
    · exact (Change.newCopy j (.inl life)).changes
    · exact .refl
  · exact .refl

theorem goneRecords_changes (q : List HostFrame) (s : State) : Changes F closing s (goneRecords q s) := by
  induction q generalizing s with
  | nil => exact .refl
  | cons f q ih =>
    refine Relation.ReflTransGen.trans ?_ (ih _)
    cases f with
    | note d tp p k => exact makeRecord_changes (.undelivered k d .gone) s
    | _ => exact .refl

theorem dropGoneNotes_changes (ids : List StationId) (s : State) : Changes F closing s (dropGoneNotes ids s) := by
  have look (b : Bool) (s : State) : Changes F closing s (if b then lookupHead s else s) := by
    cases b with
    | true => exact lookupHead_changes s
    | false => exact .refl
  have queue (p : HostFrame → Bool) (b : Bool) :
      Changes F closing s
        { s with
          hostQueue := s.hostQueue.filter p, hostRetry := if b then .zero else s.hostRetry,
          busyWait := if b then none else s.busyWait } := by
    refine (Change.hostQueue _ _ _ List.filter_sublist ?_ ?_).changes
    · cases b <;> simp
    · cases b <;> simp
  exact (queue _ _).trans ((goneRecords_changes _ _).trans (look _ _))

/-- Only an ENTRY has an outcome for the entering station, and its sender is that station. -/
theorem remove_entry (x : StationId) (r : Replica) : (remove x r).entry = none := by
  cases state : r.roster[x] with
  | full =>
    rw [remove_of_full state, depart]
    unfold cancelJoinOf
    split
    · split <;> rfl
    · rfl
  | pending => rw [remove_of_pending state]
  | absent => rw [remove_of_absent state]; rfl

theorem decideEntry_declined {i : Interval} {a : Applied} {x m j : StationId} {reason : DeclineReason}
    (none : a.entry = none) (h : (decideEntry x i a).entry = some (.declined m j reason)) : j = x := by
  unfold decideEntry at h
  split at h
  · rw [none] at h
    cases h
  split at h
  · cases h
    rfl
  split at h
  · cases h
    rfl
  · cases h

theorem ifFull_entry {a : Applied} {x : StationId} {r : Replica} (h : a.entry = none) : (ifFull x r a).entry = none := by
  unfold ifFull
  split
  · exact h
  · rfl

theorem ownEffect_declined {f : Frame} {r : Replica} {m j : StationId} {reason : DeclineReason}
    (h : (ownEffect f r).entry = some (.declined m j reason)) : (∃ i, f.body = .entry i) ∧ j = f.sender := by
  cases body : f.body with
  | entry i =>
    rw [ownEffect_entry body] at h
    exact ⟨⟨i, rfl⟩, decideEntry_declined (remove_entry _ _) h⟩
  | leave =>
    rw [ownEffect_leave body, remove_entry] at h
    cases h
  | admission x n =>
    rw [ownEffect_admission body] at h
    unfold applyAdmit at h
    split at h <;> cases h
  | evict x =>
    simp only [ownEffect, body, ifFull_entry (remove_entry x r)] at h
    cases h
  | beacon | decline | copyRoster | copyLock | note | stop =>
    simp only [ownEffect, body] at h
    cases h
  -- CLAIM, YIELD, RECALL and EXPIRE
  | _ =>
    simp only [ownEffect, body] at h
    rw [ifFull_entry rfl] at h
    cases h

theorem tellApplied_changes (f : Frame) (life : s.life = .member) :
    Changes F closing s (tellApplied f (applyFrame f s.replica) s) := by
  have applied : Changes F closing s { s with replica := (applyFrame f s.replica).replica } :=
    (Change.applied f life).changes
  generalize ha : applyFrame f s.replica = a at applied ⊢
  have told := (tellEvents_changes (F := F) (closing := closing) a.events { s with replica := a.replica }).trans
    (rosterRecord_changes a.changes _)
  have toldLife :=
    ((told_replica a.replica s).trans ((tellEvents_told a.events _).trans (rosterRecord_told a.changes _))).life.trans life
  have monitored := told.trans ((tellMonitor_changes a.changes toldLife).trans ((evictSettled_changes f _).trans
    ((withdrawDecline_changes f _).trans (abandonCopy_changes a.changes _))))
  refine applied.trans (monitored.trans (Relation.ReflTransGen.trans ?_ (dropGoneNotes_changes _ _)))
  refine answerEntry_changes ?_ fun m j reason declined => ?_
  · exact (((tellMonitor_told a.changes _).trans ((evictSettled_told f _).trans ((withdrawDecline_told f _).trans
      (abandonCopy_told a.changes _)))).life).trans toldLife
  · have own : (ownEffect f s.replica).entry = some (.declined m j reason) := by
      rw [← declined, ← ha]
      rfl
    obtain ⟨⟨i, body⟩, rfl⟩ := ownEffect_declined own
    rw [abandonCopy_declines]
    exact withdrawDecline_fresh body _

theorem applyAtMember_changes (f : Frame) (life : s.life = .member) : Changes F closing s (applyAtMember f s) := by
  have reads : Changes F closing s (afterReads (applicationReads (self s) f s.replica) s) := (afterReads_inert _ s).changes
  unfold applyAtMember
  dsimp only
  split
  · exact reads.trans (storageFault_changes _ _)
  split
  · exact (reads.tail (.inert (recordFault_inert _ _ _ _))).tail (.exclude _)
  · exact reads.trans (tellApplied_changes f (by exact life))

theorem storeNote_changes (f : Frame) (taken : Bool) (s : State) : Changes F closing s (storeNote f taken s) := by
  unfold storeNote
  split
  · split
    · next h => exact (Change.inbound _ h.2.2).changes.tail (.addRecord _)
    · exact .refl
  · exact .refl

theorem rankForeign_changes (f : Frame) (own : Option GroupTag) (s : State) :
    Changes F closing s (rankForeign f own s) := by
  unfold rankForeign
  split
  · split
    · exact (recordFault_inert _ _ _ s).changes.tail (.exclude _)
    · exact .refl
  · exact .refl

theorem closeAtMember_changes (f : Frame) (own taken : Bool) (slots : VerdictSlots) (life : s.life = .member) :
    Changes F closing s (closeAtMember f own taken slots s) := by
  have heard : Changes F closing s (hearSender f.sender s) := (Change.monitor _ (.inl life)).changes
  have takes : Changes F closing s (memberTakes f taken (hearSender f.sender s)) := by
    unfold memberTakes
    split
    · exact heard.trans (applyAtMember_changes f (by exact life))
    · exact heard.trans (storeNote_changes f taken _)
  unfold closeAtMember
  split
  · split
    · exact rankForeign_changes _ _ s
    · exact .refl
  generalize (if (own || isEntry f.body) = true then Standing.inStep else standing f.sequence s.replica.sequence) = st
  dsimp only
  split
  · exact (recordFault_inert _ _ _ s).changes.tail (.exclude _)
  split
  · split
    · exact takes
    · exact heard
  · exact .refl

/-! ### Step 5 at a joiner -/

theorem track_changes (f : Frame) (life : Joining s) : Changes F closing s (track f s) := by
  refine (Change.join (track f s).join life
    { target := rfl, tracked := fun h => ?_, entryPending := rfl, source := rfl, rosterCopy := rfl, lockCopies := rfl,
      catchUp := Nat.le_max_left _ _ }).changes
  show (trackedAfter f s).isSome = true
  unfold trackedAfter
  split
  · rfl
  · split
    · simpa using h
    · rfl

theorem countCatchUp_changes (life : Joining s) : Changes F closing s (countCatchUp s) :=
  (Change.join (countCatchUp s).join life
    { target := rfl, tracked := id, entryPending := rfl, source := rfl, rosterCopy := rfl, lockCopies := rfl,
      catchUp := Nat.le_max_left _ _ }).changes

theorem counted_changes (f : Frame) (life : Joining s) : Changes F closing s (track f (countCatchUp s)) :=
  (countCatchUp_changes life).trans (track_changes f (by exact life))

theorem catchUpFrame_changes (f : Frame) (life : Joining s) : Changes F closing s (catchUpFrame f s) := by
  have counted := counted_changes (F := F) (closing := closing) f life
  unfold catchUpFrame
  split
  · exact track_changes f life
  dsimp only
  split
  · exact counted
  split
  · next room =>
    refine counted.trans (Change.join
      { (track f (countCatchUp s)).join with catchUp := (track f (countCatchUp s)).join.catchUp ++ [f] } (by exact life)
      { target := rfl, tracked := id, entryPending := rfl, source := rfl, rosterCopy := rfl, lockCopies := rfl,
        catchUp := ?_ }).changes
    have below : s.join.catchUp.length + 1 ≤ Config.catchUpSize := room
    have appended : ((track f (countCatchUp s)).join.catchUp ++ [f]).length = s.join.catchUp.length + 1 := by
      rw [List.length_append]
      rfl
    rw [appended]
    exact below.trans (Nat.le_max_right _ _)
  · exact counted.trans (abortJoin_changes _ _ (by exact life))

theorem membersEndJoin_changes (life : Joining s) : Changes F closing s (membersEndJoin s) := by
  have closed : Changes F closing s { s with join := { s.join with isOpen := false } } :=
    (Change.join { s.join with isOpen := false } life
      { target := rfl, tracked := id, entryPending := rfl, source := rfl, rosterCopy := rfl, lockCopies := rfl,
        catchUp := Nat.le_max_left _ _ }).changes
  unfold membersEndJoin
  dsimp only
  split
  · exact closed
  · exact closed.trans (takeEnding_changes (by exact life))

theorem takeRosterCopy_changes (f : Frame) (c : RosterCopy) (s : State) :
    Changes F closing s (takeRosterCopy f c s) := by
  unfold takeRosterCopy
  split
  · next h => exact (Change.beginCopy f c h.1).changes
  · exact .refl

theorem takeLockCopy_changes {f : Frame} {k : LockId} {r : LockRecord} (known : F f) (body : f.body = .copyLock k r)
    (s : State) : Changes F closing s (takeLockCopy f k r s) := by
  unfold takeLockCopy
  split
  · next h => exact (Change.lockCopy f k r h.1 known body).changes
  · exact .refl

theorem takeDecline_changes (f : Frame) (reason : DeclineReason) (s : State) :
    Changes F closing s (takeDecline f reason s) := by
  unfold takeDecline
  split
  · next h =>
    cases reason with
    | joinBusy => exact leaveJoin_changes (.inl h.1)
    | config => exact (recordFault_inert _ _ _ s).changes.tail (.exclude _)
  · exact .refl

theorem abandonInstall_changes (sender : Option StationId) (life : s.life = .copying) :
    Changes F closing s (abandonInstall sender s) :=
  (Change.clearReplica life).changes.trans (storageFault_changes _ _)

/-- What an install holds of the station: life, join state and ID. -/
theorem installed_congr (c : RosterCopy) (join : t.join = s.join) (straps : t.straps = s.straps) :
    installed c t = installed c s := by
  simp only [installed, self, join, straps]

theorem catchUpFrom_changes (c : RosterCopy) (fs gs : List Frame) (life : s.life = .copying)
    (flight : s.round.inFlight = none) :
    Changes F closing s (catchUpFrom gs (applyAll fs (installed c s)) s) := by
  induction gs generalizing s fs with
  | nil => exact (Change.admitted c fs life flight).changes
  | cons g gs ih =>
    unfold catchUpFrom
    dsimp only
    split
    · have next := ih (s := afterReads (applicationReads (self s) g (applyAll fs (installed c s))) s) (fs ++ [g])
        (by exact life) (by exact flight)
      rw [applyAll_append] at next
      exact (afterReads_inert _ s).changes.trans next
    · exact (afterReads_inert _ s).changes.trans (abandonInstall_changes _ (by exact life))

theorem install_changes (f : Frame) (c : RosterCopy) (life : s.life = .copying) (flight : s.round.inFlight = none) :
    Changes F closing s (install f c s) := by
  have reads : Changes F closing s (afterReads (installReads s) s) := (afterReads_inert _ s).changes
  unfold install
  dsimp only
  split
  · have written : Inert (afterReads (installReads s) s) (writeInstalled (afterReads (installReads s) s)) := rfl
    exact (reads.tail (.inert written)).trans (catchUpFrom_changes c [] _ (by exact life) (by exact flight))
  · exact reads.trans (abandonInstall_changes _ (by exact life))

theorem admitSelf_changes (f : Frame) (n : Nat) (life : Joining s) (flight : s.round.inFlight = none) :
    Changes F closing s (admitSelf f n s) := by
  have counted := counted_changes (F := F) (closing := closing) f life
  unfold admitSelf
  split
  · exact counted
  split
  · next checks =>
    have copying : s.life = .copying := by
      simp only [admitChecks, Bool.and_eq_true, beq_iff_eq] at checks
      exact checks.1.1
    split
    · exact install_changes f _ copying flight
    · exact .refl
  · exact counted.trans (abortJoin_changes _ _ (by exact life))

theorem joinerTakes_changes {f : Frame} (known : F f) (life : Joining s) (flight : s.round.inFlight = none) :
    Changes F closing s (joinerTakes f s) := by
  have tracked := track_changes (F := F) (closing := closing) f life
  have catchUp := catchUpFrame_changes (F := F) (closing := closing) f life
  unfold joinerTakes
  split
  · exact membersEndJoin_changes life
  cases body : f.body with
  | admission j n =>
    dsimp only
    split
    · exact admitSelf_changes f n life flight
    · exact catchUp
  | copyRoster j c =>
    dsimp only
    split
    · exact tracked.trans (takeRosterCopy_changes f c _)
    · exact tracked
  | copyLock k r => exact tracked.trans (takeLockCopy_changes known body _)
  | decline j reason =>
    dsimp only
    split
    · exact tracked.trans (takeDecline_changes f reason _)
    · exact tracked
  | beacon i => exact tracked
  | note d tp p => exact tracked
  | stop r => exact .refl
  | _ => exact catchUp

theorem closeAtJoiner_changes {f : Frame} {own : Bool} (known : own = false → F f) (slots : VerdictSlots)
    (life : Joining s) (flight : s.round.inFlight = none) : Changes F closing s (closeAtJoiner f own slots s) := by
  unfold closeAtJoiner
  split
  · split
    · exact rankForeign_changes _ _ s
    · exact .refl
  split
  · exact .refl
  · next other =>
    split
    · exact joinerTakes_changes (known (by simpa using other)) life flight
    · exact .refl

/-! ### Step 5 at a listener, and the whole of it -/

theorem targetCandidate_changes (life : s.life = .listening) : Changes F closing s (targetCandidate s) := by
  unfold targetCandidate
  split
  · next c _ =>
    split
    · exact .refl
    · exact (Change.target c life).changes
  · exact .refl

theorem closeAtListener_changes (f : Frame) (slots : VerdictSlots) (life : s.life = .listening) :
    Changes F closing s (closeAtListener f slots s) := by
  have listens (l : Listening) : Changes F closing s { s with listening := l } := (Change.listening l life).changes
  unfold closeAtListener
  dsimp only
  generalize (if clean slots = true ∧ (!isEntry f.body) = true then configBeats 4 s else s.listening.quiet) = quiet
  split
  · exact (listens _).trans (targetCandidate_changes (by exact life))
  · exact listens _

theorem acceptStop_changes (reason : StopReason) (s : State) : Changes F closing s (acceptStop reason s) := by
  unfold acceptStop
  split
  · exact .refl
  · exact (Change.enterHalted _ _ (by simp)).changes

theorem handOn_changes {f : Frame} {own : Bool} (taken : Bool) (known : own = false → F f) (slots : VerdictSlots)
    (flight : s.round.inFlight = none) : Changes F closing s (handOn f own taken slots s) := by
  unfold handOn
  split
  · split
    · exact acceptStop_changes _ s
    · exact .refl
  split
  · next life => exact closeAtMember_changes f own taken slots life
  · next life => exact closeAtJoiner_changes known slots (.inl life) flight
  · next life => exact closeAtJoiner_changes known slots (.inr life) flight
  · next life => exact closeAtListener_changes f slots life
  all_goals exact .refl

theorem closeHandOn_changes {r : Reception} {sent : Option InFlight} (slots : VerdictSlots)
    (known : ∀ f, r.frame = some f → F f) (flight : s.round.inFlight = none) :
    Changes F closing s (closeHandOn r sent slots s) := by
  unfold closeHandOn frameToHandOn
  split
  case h_2 => exact .refl
  next f handed =>
    refine handOn_changes _ (fun other => known f ?_) slots flight
    cases sent with
    | some fl => cases other
    | none =>
      split at handed
      · cases handed
      split at handed
      · cases handed
      · exact handed

/-- The first two steps of a close and the solo-veto count (R58, R61, R65). -/
def closeCounts (r : Reception) (slots : VerdictSlots) (s : State) : State :=
  closeSoloVetoes r slots (closeVetoes r (closePointer r slots s))

theorem dropOffers_landed (flight : s.round.inFlight = none) : (dropOffers s).round.inFlight = none := by
  simp [dropOffers, flight]

theorem placeTicket_eq (t : TicketId) (p : Place) (s : State) :
    placeTicket t p s = { s with tickets := (placeTicket t p s).tickets } := by
  unfold placeTicket
  split <;> rfl

/-- Where nothing is in flight, the changes of a close put nothing there. -/
theorem Change.keeps_landed (h : Change F true s t) (flight : s.round.inFlight = none) : t.round.inFlight = none := by
  cases h with
  | inert h =>
    rw [h.eq]
    exact flight
  | exclude r => exact dropOffers_landed flight
  | enterHalted r stop h => exact dropOffers_landed flight
  | leaveJoin life => exact dropOffers_landed flight
  | placeTicket t p =>
    rw [placeTicket_eq]
    exact flight
  | entryAccepted some_flight source wanted =>
    rw [entryAccepted_eq]
    rfl
  | landed close => rfl
  | found other life => cases other
  | start c other life => cases other
  | restart other life => cases other
  | rejoin other life => cases other
  | placeRequest other => cases other
  | closeRequest slots other => cases other
  | receiveFrame line other => cases other
  | _ => exact flight

theorem closeOwnFrame_landed (slots : VerdictSlots) (s : State) : (closeOwnFrame slots s).round.inFlight = none := by
  obtain ⟨u, landed, -, rest⟩ := closeOwnFrame_lands (F := fun _ => True) slots s
  exact rest.keep Change.keeps_landed landed

theorem soloVetoesAfter_inert {r : Reception} {slots : VerdictSlots} (won : t.round.won = s.round.won)
    (flight : t.round.inFlight = s.round.inFlight) (straps : t.straps = s.straps)
    (soloVetoes : t.round.soloVetoes = s.round.soloVetoes) : soloVetoesAfter r slots t = soloVetoesAfter r slots s := by
  have silently : wonSilently t = wonSilently s := by rw [wonSilently, wonSilently, won, flight]
  have who : self t = self s := by rw [self, self, straps]
  unfold soloVetoesAfter
  rw [silently, who, soloVetoes]

/-- The first two steps of a close change the solo-veto count, and nothing else an invariant speaks of (R58, R61, R65). -/
theorem closeCounts_eq (r : Reception) (slots : VerdictSlots) (s : State) :
    ∃ u, Inert s u ∧
      closeCounts r slots s = { u with round := { u.round with soloVetoes := soloVetoesAfter r slots s } } := by
  have pointer : closePointer r slots s = { s with
      round := { s.round with pointer := (closePointer r slots s).round.pointer },
      freeCount := (closePointer r slots s).freeCount } := by
    unfold closePointer
    split
    · rfl
    split
    · rfl
    split <;> rfl
  have vetoes (s : State) : closeVetoes r s = { s with counters := (closeVetoes r s).counters } := by
    unfold closeVetoes
    split <;> rfl
  refine ⟨closeVetoes r (closePointer r slots s), ?_, ?_⟩
  · rw [vetoes, pointer]
    rfl
  · have same : soloVetoesAfter r slots (closeVetoes r (closePointer r slots s)) = soloVetoesAfter r slots s := by
      rw [vetoes, pointer]
      exact soloVetoesAfter_inert rfl rfl rfl rfl
    rw [← same]
    rfl

/-- Steps 3 to 5 of a close are elementary changes (R61). -/
theorem closeSteps_changes {r : Reception} (slots : VerdictSlots) (known : ∀ f, r.frame = some f → F f) (s : State) :
    Changes F true (closeCounts r slots s) (closeSteps r slots s) :=
  have limits := closeLimits_changes (F := F) r (soloVetoReached r slots s) (closeOwnFrame slots (closeCounts r slots s))
  (closeOwnFrame_changes slots _).trans (limits.trans
    (closeHandOn_changes slots known (limits.keep Change.keeps_landed (closeOwnFrame_landed slots _))))

end Sys2Proof.Machine
end

section
/-!
SUPPORT. Every command goes on, and what its next state is: the state after elementary changes, after the close of a verdict
window, or after a reset. The arrival of a host command's last byte is the command's own row.
-/

namespace Sys2Proof.Machine

variable {F : Frame → Prop} {s : State}

/-! ### Host commands -/

/-- Elementary changes of the commands that close no verdict window. -/
abbrev Plain (s t : State) : Prop := Changes (fun f => frameChecks f = true) false s t

theorem respond_inert (bytes : List Byte) (s : State) : Inert s (respond bytes s) := rfl

theorem answer_plain (st : Status) (s : State) : Plain s (answer st s) := (respond_inert _ s).changes

theorem answered_plain {t : State} (st : Status) (h : Plain s t) : Plain s (answer st t) := h.trans (answer_plain st t)

theorem answeredOk_plain {t : State} (bytes : List Byte) (h : Plain s t) : Plain s (answerOk bytes t) :=
  h.tail (.inert (respond_inert _ t))

theorem inStates_plain {states : List Life} {take : State → State} (h : s.life ∈ states → Plain s (take s)) :
    Plain s (inStates states take s) := by
  by_cases taken : s.life ∈ states
  · rw [inStates_of_mem taken]
    exact h taken
  · rw [inStates_of_not_mem taken]
    exact answer_plain .badState s

theorem withTicket_plain {work : TicketId → State → State}
    (h : ∀ t, s.hostQueue.length < Config.hostQueueSize → Plain s (work t s)) : Plain s (withTicket work s) := by
  unfold withTicket
  split
  · exact answer_plain _ s
  · split
    · exact answer_plain _ s
    · next room => exact h _ (Nat.lt_of_not_le room)

theorem queueUnder_plain (t : TicketId) (kind : TicketKind) (f : HostFrame) (life : s.life = .member)
    (room : s.hostQueue.length < Config.hostQueueSize) : Plain s (queueUnder t kind f s) := by
  have allocated : Plain s { s with tickets := put s.tickets t (some { kind := kind, place := .queued }) } :=
    (Change.allocate t _ life).changes
  have appended : Plain s
      { s with
        tickets := put s.tickets t (some { kind := kind, place := .queued }), hostQueue := s.hostQueue ++ [f] } :=
    allocated.tail (.appendHost f life room)
  refine answeredOk_plain _ ?_
  unfold appendHostFrame
  dsimp only
  split
  · exact appended.trans (lookupHead_changes _)
  · exact appended

theorem stopLease_plain (k : LockId) (s : State) : Plain s (stopLease k s) := by
  unfold stopLease
  split
  · have stopped : Plain s { s with leases := s.leases.map (stopEntry k (Config.unitsLeft s.freeCount)) } :=
      (Change.leases _ (by rw [List.length_map])).changes
    exact stopped.tail (.inert rfl)
  · exact .refl

theorem stopLease_life (k : LockId) (s : State) : (stopLease k s).life = s.life := by
  unfold stopLease
  split <;> rfl

theorem stopLease_hostQueue (k : LockId) (s : State) : (stopLease k s).hostQueue = s.hostQueue := by
  unfold stopLease
  split <;> rfl

theorem takeClaim_plain (lock flags lease : Byte) (s : State) : Plain s (takeClaim lock flags lease s) := by
  refine inStates_plain fun life => ?_
  have life : s.life = .member := by simpa using life
  split
  · refine withTicket_plain fun t room => ?_
    split
    · exact queueUnder_plain _ _ _ life room
    split
    · exact answer_plain _ s
    · next free =>
      exact (Change.reserve _ life (Nat.lt_of_not_le free)).changes.trans
        (queueUnder_plain _ _ _ (by exact life) (by exact room))
  · exact answer_plain _ s

theorem takeYield_plain (lock : Byte) (s : State) : Plain s (takeYield lock s) := by
  refine inStates_plain fun life => ?_
  have life : s.life = .member := by simpa using life
  split
  · next k _ =>
    refine withTicket_plain fun t room => (stopLease_plain k s).trans (queueUnder_plain _ _ _ ?_ ?_)
    · rw [stopLease_life, life]
    · rw [stopLease_hostQueue]
      exact room
  · exact answer_plain _ s

theorem removeLocally_plain (target : TicketId) (k : LockId) (s : State) : Plain s (removeLocally target k s) := by
  have removed (n : Retry) (retry : n = s.hostRetry ∨ n = .zero) :
      Plain s (makeRecord (.recalled target k) (cancelLease target
        { s with
          hostQueue := s.hostQueue.eraseP (isClaimUnder target), hostRetry := n,
          round := { s.round with chosen := s.round.chosen.filter fun o => o.source != .host target } })) := by
    have queue : Plain s { s with hostQueue := s.hostQueue.eraseP (isClaimUnder target), hostRetry := n } :=
      (Change.hostQueue _ n s.busyWait List.eraseP_sublist retry (.inl rfl)).changes
    refine queue.trans (Relation.ReflTransGen.trans ?_ ((cancelLease_changes target _).trans (makeRecord_changes _ _)))
    exact Inert.changes rfl
  unfold removeLocally
  generalize (s.hostQueue.head?.map (isClaimUnder target)).getD false = wasHead
  cases wasHead with
  | true => exact (removed .zero (.inr rfl)).trans (lookupHead_changes _)
  | false => exact removed s.hostRetry (.inl rfl)

theorem takeRecall_plain (lock target : Byte) (s : State) : Plain s (takeRecall lock target s) := by
  refine inStates_plain fun life => ?_
  have life : s.life = .member := by simpa using life
  have byFrame (k : LockId) (t : TicketId) :
      Plain s (withTicket (fun u s => queueUnder u .recall (.recall k t u) s) s) :=
    withTicket_plain fun u room => queueUnder_plain _ _ _ life room
  split
  · unfold acceptRecall
    split
    · split
      · exact answer_plain _ s
      split
      · exact byFrame _ _
      · exact answered_plain _ (removeLocally_plain _ _ s)
    · split
      · exact answer_plain _ s
      · exact byFrame _ _
    · exact answer_plain _ s
  · exact answer_plain _ s

theorem takeNoteCommand_plain (dest topic length : Byte) (payload : List Byte) (s : State) :
    Plain s (takeNoteCommand dest topic length payload s) := by
  refine inStates_plain fun life => ?_
  have life : s.life = .member := by simpa using life
  split
  · split
    · exact answer_plain _ s
    · exact withTicket_plain fun t room => queueUnder_plain _ _ _ life room
  · exact answer_plain _ s

theorem freeForRecord_plain (r : Record) (s : State) : Plain s (freeForRecord r s) := by
  unfold freeForRecord
  split
  · exact (Change.leases _ List.length_erase_le).changes
  · split
    · exact (Change.freeTicket _).changes
    · exact .refl

theorem takeNext_plain (s : State) : Plain s (takeNext s) := by
  unfold takeNext
  split
  · exact answer_plain _ s
  · next h => exact answeredOk_plain _ ((Change.takeRecord h).changes.trans (freeForRecord_plain _ _))

theorem takeInbound_plain (s : State) : Plain s (takeInbound s) := by
  unfold takeInbound
  split
  · exact answer_plain _ s
  · next h => exact answeredOk_plain _ (Change.takeNote h).changes

theorem look_plain (words : List StoreWord) (bytes : State → List Byte) (s : State) : Plain s (look words bytes s) := by
  have reads : Plain s (afterReads words s) := (afterReads_inert words s).changes
  unfold look
  dsimp only
  split
  · exact answeredOk_plain _ reads
  split
  · exact answered_plain _ (reads.tail (.inert (recordFault_inert _ _ _ _)))
  · exact answered_plain _ (reads.trans (storageFault_changes _ _))

theorem takeLookLock_plain (lock : Byte) (s : State) : Plain s (takeLookLock lock s) := by
  refine inStates_plain fun _ => ?_
  split
  · exact look_plain _ _ s
  · exact answer_plain _ s

theorem takeLookRoster_plain (s : State) : Plain s (takeLookRoster s) := inStates_plain fun _ => look_plain _ _ s

theorem takeStart_plain (arg : Byte) (s : State) : Plain s (takeStart arg s) := by
  refine inStates_plain fun life => ?_
  split
  · exact answered_plain _ (Change.start _ rfl (by simpa using life)).changes
  · exact answer_plain _ s

theorem leaveWhileJoining_plain (life : Joining s) : Plain s (leaveWhileJoining s) := by
  unfold leaveWhileJoining
  split
  · split
    · exact (Change.join { s.join with leaveAtEntryClose := true } life
        { target := rfl, tracked := id, entryPending := rfl, source := rfl, rosterCopy := rfl, lockCopies := rfl,
          catchUp := Nat.le_max_left _ _ }).changes
    · exact (Change.exclude _).changes
  split
  · exact .refl
  split
  · exact (Change.join { s.join with abort := some .left } life
      { target := rfl, tracked := id, entryPending := rfl, source := rfl, rosterCopy := rfl, lockCopies := rfl,
        catchUp := Nat.le_max_left _ _ }).changes
  split
  · exact (pendAbort_changes _ life).trans (pendLeave_changes _ (.inr life))
  · exact (Change.exclude _).changes

theorem takeLeave_plain (s : State) : Plain s (takeLeave s) := by
  refine inStates_plain fun life => answered_plain _ ?_
  split
  · next member =>
    unfold leaveAsMember
    split
    · exact .refl
    · exact (Change.pendLeave _ (.inl member)).changes
  · next other => exact leaveWhileJoining_plain (by simpa [other] using life)

theorem takeStop_plain (s : State) : Plain s (takeStop s) := by
  refine inStates_plain fun life => answered_plain _ ?_
  split
  · exact .refl
  · exact (Change.pendStop _ fun halted => by simp [halted] at life).changes

theorem takeRestart_plain (s : State) : Plain s (takeRestart s) :=
  inStates_plain fun life => answered_plain _ (Change.restart rfl (by simpa using life)).changes

/-! ### The rows of the host port are the arrivals of its bytes -/

theorem argumentCount_none {code : Byte} (h : argumentCount code = none) : code.toNat = 0 ∨ 16 < code.toNat := by
  revert code
  decide

theorem argumentCount_cases (code : Byte) :
    argumentCount code = none ∨ code ∈ [1, 2, 3, 4, 5, 6, 7, 8, 9, 10, 11, 12, 13, 14, 15, 16] := by
  revert code
  decide

theorem takeBytes_unknown {code : Byte} (h : argumentCount code = none) (s : State) :
    takeBytes [code] s = answer .badCommand s := by
  have codes := argumentCount_none h
  delta takeBytes
  dsimp only
  generalize code.toNat = n at codes ⊢
  rcases codes with rfl | above
  · rfl
  · obtain ⟨m, rfl⟩ : ∃ m, n = m + 17 := ⟨n - 17, by omega⟩
    rfl

theorem unknown_of_wellFormed {code : Byte} (h : (Instr.badCommand code).wellFormed = true) :
    argumentCount code = none := by
  revert code
  decide

/-- A host command's row takes the bytes it is sent as, when the port awaits the last of them (R160). -/
theorem exec_host {c : Instr} {bytes : List Byte} (wf : c.wellFormed = true) (sent : commandBytes c = some bytes)
    (s : State) : exec c s = .next (whenTaken bytes (takeBytes bytes) s) := by
  cases c with
  | badCommand code =>
    cases sent
    have unknown := unknown_of_wellFormed wf
    have take : takeBytes [code] = answer .badCommand := funext (takeBytes_unknown unknown)
    rw [take]
    show Host.Outcome.next _ = _
    rw [unknown]
    rfl
  | _ => cases sent <;> rfl

theorem commandComplete_of_row {c : Instr} {bytes : List Byte} (wf : c.wellFormed = true)
    (sent : commandBytes c = some bytes) : commandComplete bytes = true := by
  cases c with
  | badCommand code =>
    cases sent
    simp [commandComplete, unknown_of_wellFormed wf]
  | note dest topic length payload =>
    cases sent
    exact wf
  | _ => cases sent <;> rfl

theorem wellFormed_of_unknown {code : Byte} (h : argumentCount code = none) :
    (Instr.badCommand code).wellFormed = true := by
  revert code
  decide

/-- A known code that is not NOTE's is whole with the number of argument bytes the code has (R160, R189). -/
theorem length_of_complete {code : Byte} {n : Nat} {args : List Byte} (count : argumentCount code = some n)
    (notNote : code.toNat ≠ 6) (h : commandComplete (code :: args) = true) : args.length = n := by
  simpa [commandComplete, count, notNote] using h

theorem row_of_known {code : Byte} {args : List Byte}
    (known : code ∈ [1, 2, 3, 4, 5, 6, 7, 8, 9, 10, 11, 12, 13, 14, 15, 16])
    (h : commandComplete (code :: args) = true) :
    ∃ c : Instr, c.wellFormed = true ∧ commandBytes c = some (code :: args) := by
  have bare {code : Byte} (c : Instr) (count : argumentCount code = some 0) (notNote : code.toNat ≠ 6)
      (wf : c.wellFormed = true) (sent : commandBytes c = some [code]) (h : commandComplete (code :: args) = true) :
      ∃ c : Instr, c.wellFormed = true ∧ commandBytes c = some (code :: args) := by
    obtain rfl := List.length_eq_zero_iff.mp (length_of_complete count notNote h)
    exact ⟨c, wf, sent⟩
  simp only [List.mem_cons, List.not_mem_nil, or_false] at known
  rcases known with
    rfl | rfl | rfl | rfl | rfl | rfl | rfl | rfl | rfl | rfl | rfl | rfl | rfl | rfl | rfl | rfl
  · exact bare .status rfl (by decide) rfl rfl h
  · obtain ⟨arg, rfl⟩ := List.length_eq_one_iff.mp (length_of_complete rfl (by decide) h)
    exact ⟨.start arg, rfl, rfl⟩
  · obtain ⟨lock, flags, lease, rfl⟩ := List.length_eq_three.mp (length_of_complete rfl (by decide) h)
    exact ⟨.claim lock flags lease, rfl, rfl⟩
  · obtain ⟨lock, rfl⟩ := List.length_eq_one_iff.mp (length_of_complete rfl (by decide) h)
    exact ⟨.yield lock, rfl, rfl⟩
  · obtain ⟨lock, target, rfl⟩ := List.length_eq_two.mp (length_of_complete rfl (by decide) h)
    exact ⟨.recall lock target, rfl, rfl⟩
  · match args, h with
    | dest :: topic :: length :: payload, h => exact ⟨.note dest topic length payload, h, rfl⟩
  · exact bare .next rfl (by decide) rfl rfl h
  · exact bare .takeNote rfl (by decide) rfl rfl h
  · obtain ⟨lock, rfl⟩ := List.length_eq_one_iff.mp (length_of_complete rfl (by decide) h)
    exact ⟨.lookLock lock, rfl, rfl⟩
  · exact bare .lookRoster rfl (by decide) rfl rfl h
  · exact bare .leave rfl (by decide) rfl rfl h
  · exact bare .stop rfl (by decide) rfl rfl h
  · exact bare .restart rfl (by decide) rfl rfl h
  · exact bare .softReset rfl (by decide) rfl rfl h
  · exact bare .faults rfl (by decide) rfl rfl h
  · exact bare .clearFaults rfl (by decide) rfl rfl h

/-- The bytes of a whole command are those some host command is sent as (R160, R161). -/
theorem row_of_commandComplete {bytes : List Byte} (h : commandComplete bytes = true) :
    ∃ c : Instr, c.wellFormed = true ∧ commandBytes c = some bytes := by
  cases bytes with
  | nil => cases h
  | cons code args =>
    rcases argumentCount_cases code with unknown | known
    · have none : args = [] := by simpa [commandComplete, unknown] using h
      subst none
      exact ⟨.badCommand code, wellFormed_of_unknown unknown, rfl⟩
    · exact row_of_known known h

/-- The byte that completes a host command carries out the command's row (R160). -/
theorem exec_byteArrives_of_row {c : Instr} {bytes : List Byte} {b : Byte} (wf : c.wellFormed = true)
    (sent : commandBytes c = some (bytes ++ [b])) (phase : s.port.phase = .command ∨ s.port.phase = .arguments)
    (collected : s.port.collected = bytes) : exec (.byteArrives b) s = exec c s := by
  have complete := commandComplete_of_row wf sent
  have awaits : awaitsLast (bytes ++ [b]) s = true := by
    unfold awaitsLast
    rcases phase with phase | phase <;> simp [phase, collected]
  have taken : arrive b s = takeBytes (bytes ++ [b]) s := by
    unfold arrive collectByte
    rcases phase with phase | phase <;> simp [phase, collected, complete]
  rw [exec_host wf sent, whenTaken, complete, awaits]
  exact congrArg _ taken

/-! ### What a command makes of the state -/

/-- The next state of a command: after elementary changes, after a reset, or after the close of a verdict window. -/
inductive Outcome (s : State) : State → Prop
  | plain {t : State} (h : Plain s t) : Outcome s t
  | powered (pins : Straps) : Outcome s (powerOn pins s)
  | reset : Outcome s (takeSoftReset s)
  | closed (slots : VerdictSlots) : Outcome s (closeVerdictWindow slots s)

/-! ### Rounds and timers -/

theorem startRound_plain (known : Bool) (s : State) : Plain s (startRound known s) := by
  unfold startRound
  split
  · exact Inert.changes rfl
  · exact .refl

theorem afterShadowReads_plain (words : List StoreWord) (s : State) : Plain s (afterShadowReads words s) := by
  unfold afterShadowReads
  split
  · next c copy =>
    have kept : Plain s { s with copy := some { c with ecc := (readWords words c.ecc).ecc } } :=
      (Change.keepCopy { c with ecc := (readWords words c.ecc).ecc } s.copyRetry copy rfl (.inl rfl)).changes
    exact kept.tail (.inert rfl)
  · exact .refl

theorem openRequestWindow_plain (s : State) : Plain s (openRequestWindow s) := by
  have built (s : State) : Plain s (buildChosen s) := by
    have reads := afterShadowReads_plain (buildReads s) s
    unfold buildChosen
    dsimp only
    split
    · exact reads
    · have unchosen : Inert (afterShadowReads (buildReads s) s)
          { afterShadowReads (buildReads s) s with
            round := { (afterShadowReads (buildReads s) s).round with chosen := none } } := rfl
      exact (reads.tail (.inert unchosen)).trans (storageFault_changes _ _)
  unfold openRequestWindow
  split
  · exact (Change.placeRequest rfl).changes.trans (built _)
  · exact .refl

theorem closeEmptyWindow_plain (s : State) : Plain s (closeEmptyWindow s) := by
  unfold closeEmptyWindow
  split
  · exact Inert.changes rfl
  · exact .refl

theorem beaconFallsDue_plain (s : State) : Plain s (beaconFallsDue s) := by
  unfold beaconFallsDue
  split
  · next running =>
    refine (Change.monitor _ (.inr (.inr (.inr (.inr (.inl fun stopped => ?_)))))).changes
    rw [stopped] at running
    cases running
  · exact .refl

theorem fallsSilent_plain (peer : StationId) (s : State) : Plain s (fallsSilent peer s) := by
  unfold fallsSilent
  split
  · next running =>
    refine (Change.monitor _ (.inr (.inr (.inr (.inr (.inl fun stopped => ?_)))))).changes
    rw [stopped] at running
    simp [RosterMonitor.stopped, isRunning] at running
  · exact .refl

theorem quietWindowEnds_plain (s : State) : Plain s (quietWindowEnds s) := by
  unfold quietWindowEnds
  split
  · next h => exact (Change.found rfl h.1).changes
  · exact .refl

theorem backoffEnds_plain (s : State) : Plain s (backoffEnds s) := by
  unfold backoffEnds
  split
  · next h =>
    have stopped : Plain s { s with listening := { s.listening with backoff := none } } :=
      (Change.listening _ h.1).changes
    exact stopped.trans (targetCandidate_changes (by exact h.1))
  · exact .refl

theorem joinTimesOut_plain (s : State) : Plain s (joinTimesOut s) := by
  unfold joinTimesOut
  split
  · next h =>
    have stopped : Plain s { s with join := { s.join with joinTimer := none } } :=
      (Change.join { s.join with joinTimer := none } (.inl h.1)
        { target := rfl, tracked := id, entryPending := rfl, source := rfl, rosterCopy := rfl, lockCopies := rfl,
          catchUp := Nat.le_max_left _ _ }).changes
    exact stopped.trans (leaveJoin_changes (.inl h.1))
  · exact .refl

theorem copyStalls_plain (s : State) : Plain s (copyStalls s) := by
  unfold copyStalls
  split
  · next h =>
    have stopped : Plain s { s with join := { s.join with stallTimer := none } } :=
      (Change.join { s.join with stallTimer := none } (.inr h.1)
        { target := rfl, tracked := id, entryPending := rfl, source := rfl, rosterCopy := rfl, lockCopies := rfl,
          catchUp := Nat.le_max_left _ _ }).changes
    exact stopped.trans (abortJoin_changes _ _ (.inr h.1))
  · exact .refl

theorem rejoinEnds_plain (s : State) : Plain s (rejoinEnds s) := by
  unfold rejoinEnds
  split
  · next h => exact (Change.rejoin rfl h.1).changes
  · exact .refl

theorem leaseCountsOut_plain (k : LockId) (s : State) : Plain s (leaseCountsOut k s) := by
  unfold leaseCountsOut
  split
  · next running =>
    have leased : s.leases ≠ [] := by
      intro none
      rw [none] at running
      cases running
    have counted : Plain s { s with expireSet := addTo s.expireSet k } :=
      (Change.expireSet _ (.inr (.inr (.inl leased)))).changes
    exact counted.tail (.leases (s.leases.map (countOutEntry k)) (by rw [List.length_map]))
  · exact .refl

/-! ### Every command -/

theorem whenTaken_plain (bytes : List Byte) {take : State → State} (h : Plain s (take s)) :
    Plain s (whenTaken bytes take s) := by
  unfold whenTaken
  split
  · exact h
  · exact .refl

/-- A limit's row is the close it takes place at, or no change. -/
theorem limit_outcome (b : Bool) (slots : VerdictSlots) (s : State) :
    Outcome s (if b then closeVerdictWindow slots s else s) := by
  cases b with
  | true => exact .closed slots
  | false => exact .plain .refl

/-- Every command but the arrival of a byte has a next state, and it is one of these. -/
theorem exec_outcome_of_row {c : Instr} (row : ∀ b, c ≠ .byteArrives b) (s : State) :
    ∃ t, exec c s = .next t ∧ Outcome s t := by
  cases c with
  | powerOnReset pins => exact ⟨_, rfl, .powered pins⟩
  | selectFalls =>
    refine ⟨_, rfl, .plain ?_⟩
    unfold selectFalls
    split
    · exact Inert.changes rfl
    · exact .refl
  | selectRises => exact ⟨_, rfl, .plain (Inert.changes rfl)⟩
  | badCommand code =>
    refine ⟨_, rfl, .plain ?_⟩
    split
    · exact whenTaken_plain _ (answer_plain _ s)
    · exact .refl
  | status => exact ⟨_, rfl, .plain (whenTaken_plain _ (answeredOk_plain _ .refl))⟩
  | start arg => exact ⟨_, rfl, .plain (whenTaken_plain _ (takeStart_plain arg s))⟩
  | claim lock flags lease => exact ⟨_, rfl, .plain (whenTaken_plain _ (takeClaim_plain lock flags lease s))⟩
  | yield lock => exact ⟨_, rfl, .plain (whenTaken_plain _ (takeYield_plain lock s))⟩
  | note dest topic length payload =>
    exact ⟨_, rfl, .plain (whenTaken_plain _ (takeNoteCommand_plain dest topic length payload s))⟩
  | next => exact ⟨_, rfl, .plain (whenTaken_plain _ (takeNext_plain s))⟩
  | takeNote => exact ⟨_, rfl, .plain (whenTaken_plain _ (takeInbound_plain s))⟩
  | lookLock lock => exact ⟨_, rfl, .plain (whenTaken_plain _ (takeLookLock_plain lock s))⟩
  | lookRoster => exact ⟨_, rfl, .plain (whenTaken_plain _ (takeLookRoster_plain s))⟩
  | leave => exact ⟨_, rfl, .plain (whenTaken_plain _ (takeLeave_plain s))⟩
  | stop => exact ⟨_, rfl, .plain (whenTaken_plain _ (takeStop_plain s))⟩
  | restart => exact ⟨_, rfl, .plain (whenTaken_plain _ (takeRestart_plain s))⟩
  | softReset =>
    refine ⟨_, rfl, ?_⟩
    unfold whenTaken
    split
    · exact .reset
    · exact .plain .refl
  | faults => exact ⟨_, rfl, .plain (whenTaken_plain _ (answeredOk_plain _ .refl))⟩
  | clearFaults => exact ⟨_, rfl, .plain (whenTaken_plain _ (answered_plain _ (Inert.changes rfl)))⟩
  | roundStart => exact ⟨_, rfl, .plain (startRound_plain _ s)⟩
  | resynchronizingStart => exact ⟨_, rfl, .plain (startRound_plain _ s)⟩
  | requestWindowOpen => exact ⟨_, rfl, .plain (openRequestWindow_plain s)⟩
  | requestWindowClose slots => exact ⟨_, rfl, .plain (Change.closeRequest slots rfl).changes⟩
  | emptyRequestWindow => exact ⟨_, rfl, .plain (closeEmptyWindow_plain s)⟩
  | frameReceived line => exact ⟨_, rfl, .plain (Change.receiveFrame line rfl).changes⟩
  | verdictWindowClose slots => exact ⟨_, rfl, .closed slots⟩
  | readbackMismatchLimit slots => exact ⟨_, rfl, limit_outcome _ slots s⟩
  | soloVetoLimit slots => exact ⟨_, rfl, limit_outcome _ slots s⟩
  | attemptLimitDrop slots => exact ⟨_, rfl, limit_outcome _ slots s⟩
  | copyFrameDrop slots => exact ⟨_, rfl, limit_outcome _ slots s⟩
  | busyLimitDrop slots => exact ⟨_, rfl, limit_outcome _ slots s⟩
  | busyWaitExpiry => exact ⟨_, rfl, .plain (Change.hostQueue _ _ none (List.Sublist.refl _) (.inl rfl) (.inr rfl)).changes⟩
  | ownBeaconTimerExpiry => exact ⟨_, rfl, .plain (beaconFallsDue_plain s)⟩
  | silenceTimerExpiry peer => exact ⟨_, rfl, .plain (fallsSilent_plain peer s)⟩
  | quietWindowExpiry => exact ⟨_, rfl, .plain (quietWindowEnds_plain s)⟩
  | backoffTimerExpiry => exact ⟨_, rfl, .plain (backoffEnds_plain s)⟩
  | joinTimerExpiry => exact ⟨_, rfl, .plain (joinTimesOut_plain s)⟩
  | stallTimerExpiry => exact ⟨_, rfl, .plain (copyStalls_plain s)⟩
  | rejoinTimerExpiry => exact ⟨_, rfl, .plain (rejoinEnds_plain s)⟩
  | leaseCountOut lock => exact ⟨_, rfl, .plain (leaseCountsOut_plain lock s)⟩
  | byteArrives b => exact absurd rfl (row b)
  -- RECALL, whose constructor's name Mathlib keeps for a command of its own.
  | _ lock target => exact ⟨_, rfl, .plain (whenTaken_plain _ (takeRecall_plain lock target s))⟩

/-- A byte completes a command and carries out its row, or it moves the port alone (R160). -/
theorem byteArrives_row_or_port (b : Byte) (s : State) :
    (∃ c : Instr, (∀ b', c ≠ .byteArrives b') ∧ exec (.byteArrives b) s = exec c s) ∨
      ∃ p : HostPort, exec (.byteArrives b) s = .next { s with port := p } := by
  have collecting (phase : s.port.phase = .command ∨ s.port.phase = .arguments) :
      (∃ c : Instr, (∀ b', c ≠ .byteArrives b') ∧ exec (.byteArrives b) s = exec c s) ∨
        ∃ p : HostPort, exec (.byteArrives b) s = .next { s with port := p } := by
    by_cases complete : commandComplete (s.port.collected ++ [b]) = true
    · obtain ⟨c, wf, sent⟩ := row_of_commandComplete complete
      refine .inl ⟨c, fun b' h => ?_, exec_byteArrives_of_row wf sent phase rfl⟩
      subst h
      cases sent
    · refine .inr ⟨{ s.port with phase := .arguments, collected := s.port.collected ++ [b], miso := some filler }, ?_⟩
      refine congrArg Host.Outcome.next ?_
      unfold arrive collectByte
      rcases phase with phase | phase <;> simp [phase, complete]
  cases phase : s.port.phase with
  | idle => exact .inr ⟨s.port, by simp [exec, execByteArrives, arrive, phase]⟩
  | command => exact collecting (.inl phase)
  | arguments => exact collecting (.inr phase)
  | responding =>
    have clocked : arrive b s = { s with port := (clockOut s).port } := by
      simp only [arrive, phase, clockOut]
      split <;> rfl
    exact .inr ⟨(clockOut s).port, congrArg Host.Outcome.next clocked⟩
  | discarding => exact .inr ⟨{ s.port with miso := some filler }, by simp [exec, execByteArrives, arrive, phase]⟩

/-- Every command has a next state, and it is one of these. -/
theorem exec_outcome (c : Instr) (s : State) : ∃ t, exec c s = .next t ∧ Outcome s t := by
  by_cases byte : ∃ b, c = .byteArrives b
  · obtain ⟨b, rfl⟩ := byte
    rcases byteArrives_row_or_port b s with ⟨c, row, same⟩ | ⟨p, moved⟩
    · rw [same]
      exact exec_outcome_of_row row s
    · exact ⟨_, moved, .plain (Inert.changes rfl)⟩
  · exact exec_outcome_of_row (fun b h => byte ⟨b, h⟩) s

end Sys2Proof.Machine
end

section
/-! The settlements of O1, O2 and O5: what a step is, that every command goes on, and what the last byte of a command does. -/

namespace Sys2Proof.Machine

variable {F : Frame → Prop} {closing : Bool} {s t : State}

/-- Settles O1. -/
theorem stepRunsTheFrontCommandOrIdles : Obligations.StepRunsTheFrontCommandOrIdles :=
  ⟨fun _ _ _ => rfl, fun s idle => by rw [step, idle]⟩

/-- Settles O5: a row is the taking of its bytes, and the last byte takes them. -/
theorem lastByteTakesTheCommand : Obligations.LastByteTakesTheCommand := by
  intro c bytes b s wf sent collected
  refine exec_byteArrives_of_row wf sent ?_ collected.2
  obtain ⟨phase, -⟩ := collected
  split at phase
  · exact .inl phase
  · exact .inr phase

/-! ### The queue of commands -/

theorem Change.pending (h : Change F closing s t) : t.pending = s.pending := by
  cases h with
  | inert h => rw [h.eq]; rfl
  | placeTicket t p => rw [placeTicket_eq]
  | entryAccepted flight source wanted => rw [entryAccepted_eq]; rfl
  | closeRequest slots other => rw [closeRequestWindow_eq]
  | receiveFrame line other => rw [receiveFrame_eq]
  | _ => rfl

theorem Changes.pending (h : Changes F closing s t) : t.pending = s.pending :=
  h.keep (P := fun u => u.pending = s.pending) (fun last same => last.pending.trans same) rfl

theorem closeVerdictWindow_pending (slots : VerdictSlots) (s : State) :
    (closeVerdictWindow slots s).pending = s.pending := by
  unfold closeVerdictWindow
  split
  · next r _ _ =>
    have steps := (closeSteps_changes (F := fun _ => True) slots (fun f _ => trivial) s (r := r)).pending
    obtain ⟨u, inert, counts⟩ := closeCounts_eq r slots s
    calc (closeSteps r slots s).pending
      _ = (closeCounts r slots s).pending := steps
      _ = u.pending := by rw [counts]
      _ = s.pending := by rw [inert.eq]; rfl
  · rfl

/-- Settles O2: elementary changes, resets and closes leave the queue of commands alone. -/
theorem everyCommandGoesOn : Obligations.EveryCommandGoesOn := by
  intro c s
  obtain ⟨t, next, outcome⟩ := exec_outcome c s
  refine ⟨t, next, ?_⟩
  cases outcome with
  | plain h => exact h.pending
  | powered pins => rfl
  | reset => rfl
  | closed slots => exact closeVerdictWindow_pending slots s

end Sys2Proof.Machine
end

section
/-!
The settlement of O59. Every elementary change keeps what the blocks hold in each state of the life cycle; a station that is not in
OFF stays out of it, and one in OFF stays silent until START or a reset.
-/

namespace Sys2Proof.Machine

variable {F : Frame → Prop} {closing : Bool} {s t : State}

/-- `BlocksAgree` without its two laws of OFF. -/
structure BlocksCore (s : State) : Prop where
  excluded   : s.life = .excluded ↔ s.exclusionReason.isSome = true
  halted     : s.life = .halted ↔ s.haltReason.isSome = true
  grouped    : s.life = .member → s.replica.tag.isSome = true ∧ s.replica.interval.isSome = true
  cleared    : s.life ≠ .member → s.life ≠ .halted → s.replica = .cleared
  hostIdle   : s.life ≠ .member → s.tickets = Vector.replicate 16 none ∧ s.hostQueue = [] ∧ s.busyWait = none
  monitor    : s.life ≠ .member → s.monitor = .stopped
  leases     : s.life ≠ .member → s.leases = [] ∧ s.expireSet = noLocks
  source     : s.life ≠ .member → s.declines = [] ∧ s.copy = none
  listening  : s.life ≠ .listening → s.listening = .stopped
  joining    : s.life ≠ .entering → s.life ≠ .copying → s.join = .none
  targeted   : s.life = .entering ∨ s.life = .copying → s.join.target.isSome = true ∧ s.join.tracked.isSome = true
  copied     : s.life = .copying → s.join.source.isSome = true ∧ s.join.rosterCopy.isSome = true
  entry      : entryInFlight s = true → s.join.entryPending = true
  rejoin     : s.rejoin.isSome = true → s.life = .excluded
  leave      : s.pendingLeave.isSome = true → s.life = .member ∨ s.life = .entering ∨ s.life = .copying
  haltStop   : s.life = .halted → s.pendingStop ≠ some .host

/-- The station is configured, and so out of OFF. -/
structure Running (s : State) : Prop where
  life   : s.life ≠ .off
  config : s.config ≠ none

/-- The station is in OFF, without configuration, round or STOP. -/
structure Silent (s : State) : Prop where
  life        : s.life = .off
  config      : s.config = none
  phase       : s.round.phase = .idle
  inFlight    : s.round.inFlight = none
  pendingStop : s.pendingStop = none

theorem blocksAgree_iff : BlocksAgree s ↔ BlocksCore s ∧ (Running s ∨ Silent s) := by
  constructor
  · intro h
    refine ⟨{ h with }, ?_⟩
    by_cases off : s.life = .off
    · obtain ⟨phase, inFlight, pendingStop⟩ := h.offSilent off
      exact .inr ⟨off, h.configured.1 off, phase, inFlight, pendingStop⟩
    · exact .inl ⟨off, fun none => off (h.configured.2 none)⟩
  · rintro ⟨core, running | silent⟩
    · exact { core with
        configured := ⟨fun off => absurd off running.life, fun none => absurd none running.config⟩
        offSilent := fun off => absurd off running.life }
    · exact { core with
        configured := ⟨fun _ => silent.config, fun _ => silent.life⟩
        offSilent := fun _ => ⟨silent.phase, silent.inFlight, silent.pendingStop⟩ }

/-! ### Small facts -/

theorem no_some {α : Type} {o : Option α} {p : Prop} (none : o = none) (some : o.isSome = true) : p := by
  rw [none] at some
  cases some

theorem put_replicate {α : Type} {n : Nat} (i : Fin n) (a : α) : put (Vector.replicate n a) i a = Vector.replicate n a := by
  apply Vector.ext
  intro j hj
  rw [show (put (Vector.replicate n a) i a)[j] = (put (Vector.replicate n a) i a)[(⟨j, hj⟩ : Fin n)] from rfl, getElem_put]
  simp

theorem dropOffers_entryInFlight (s : State) : entryInFlight (dropOffers s) = false := by
  unfold entryInFlight sourceInFlight dropOffers
  cases s.round.inFlight with
  | none => rfl
  | some f => cases f with | mk offer frame bytes discarded => cases offer with | mk source body =>
    cases source <;> simp [staysOffered]

theorem BlocksCore.acts (h : BlocksCore s) (acts : ActsAsMember s) : s.life = .member := by
  by_contra other
  obtain ⟨-, queue, -⟩ := h.hostIdle other
  obtain ⟨leases, expireSet⟩ := h.leases other
  obtain ⟨-, copy⟩ := h.source other
  rcases acts with life | busy | leased | expiring | monitored | copying
  · exact other life
  · exact busy queue
  · exact leased leases
  · exact expiring expireSet
  · exact monitored (h.monitor other)
  · exact copying copy

theorem BlocksCore.not_excluded (h : BlocksCore s) (life : s.life ≠ .excluded) : s.exclusionReason = none := by
  simpa [life] using h.excluded

theorem BlocksCore.not_halted (h : BlocksCore s) (life : s.life ≠ .halted) : s.haltReason = none := by
  simpa [life] using h.halted

theorem BlocksCore.no_rejoin (h : BlocksCore s) (life : s.life ≠ .excluded) : s.rejoin = none := by
  simpa using fun some => life (h.rejoin some)

theorem BlocksCore.no_leave (h : BlocksCore s) (life : s.life ≠ .member) (entering : s.life ≠ .entering)
    (copying : s.life ≠ .copying) : s.pendingLeave = none := by
  simpa [life, entering, copying] using h.leave

theorem BlocksCore.join_none (h : BlocksCore s) (entering : s.life ≠ .entering) (copying : s.life ≠ .copying) :
    s.join = .none := h.joining entering copying

/-- A change of the member's own blocks while the station is a member. -/
theorem placeTicket_idle (t : TicketId) (p : Place) (idle : s.tickets = Vector.replicate 16 none) :
    (placeTicket t p s).tickets = Vector.replicate 16 none := by
  unfold placeTicket
  rw [idle]
  simp [idle]

/-! ### Leaving a state of the life cycle -/

theorem BlocksCore.exclude (r : ExclusionReason) (s : State) : BlocksCore (exclude r s) where
  excluded := ⟨fun _ => rfl, fun _ => rfl⟩
  halted := ⟨nofun, nofun⟩
  grouped := nofun
  cleared _ _ := rfl
  hostIdle _ := ⟨rfl, rfl, rfl⟩
  monitor _ := rfl
  leases _ := ⟨rfl, rfl⟩
  source _ := ⟨rfl, rfl⟩
  listening _ := rfl
  joining _ _ := rfl
  targeted := nofun
  copied := nofun
  entry inFlight := by
    rw [Machine.exclude, dropOffers_entryInFlight] at inFlight
    cases inFlight
  rejoin _ := rfl
  leave := nofun
  haltStop := nofun

theorem BlocksCore.enterHalted (r : StopReason) {stop : Option StopReason} (h : stop ≠ some .host) (s : State) :
    BlocksCore (enterHalted r stop s) where
  excluded := ⟨nofun, nofun⟩
  halted := ⟨fun _ => rfl, fun _ => rfl⟩
  grouped := nofun
  cleared _ halted := absurd rfl halted
  hostIdle _ := ⟨rfl, rfl, rfl⟩
  monitor _ := rfl
  leases _ := ⟨rfl, rfl⟩
  source _ := ⟨rfl, rfl⟩
  listening _ := rfl
  joining _ _ := rfl
  targeted := nofun
  copied := nofun
  entry inFlight := by
    rw [Machine.enterHalted, dropOffers_entryInFlight] at inFlight
    cases inFlight
  rejoin := nofun
  leave := nofun
  haltStop _ := h

theorem BlocksCore.enterListening (failed : Bool) (h : BlocksCore s) (life : s.life ≠ .member)
    (cleared : s.replica = .cleared) (rejoin : s.rejoin = none) : BlocksCore (enterListening failed s) where
  excluded := ⟨nofun, nofun⟩
  halted := ⟨nofun, nofun⟩
  grouped := nofun
  cleared _ _ := cleared
  hostIdle _ := h.hostIdle life
  monitor _ := h.monitor life
  leases _ := h.leases life
  source _ := h.source life
  listening other := absurd rfl other
  joining _ _ := rfl
  targeted := nofun
  copied := nofun
  entry inFlight := by
    rw [Machine.enterListening, dropOffers_entryInFlight] at inFlight
    cases inFlight
  rejoin := no_some rejoin
  leave := nofun
  haltStop := nofun

theorem BlocksCore.configure (c : StartConfig) (h : BlocksCore s) : BlocksCore (configure c s) :=
  { h with rejoin := nofun }

theorem BlocksCore.clearForRestart (h : BlocksCore s) (life : s.life = .halted) : BlocksCore (clearForRestart s) :=
  { h with
    grouped := fun member => by cases life.symm.trans member
    cleared := fun _ _ => rfl
    haltStop := nofun }

theorem BlocksCore.endRejoin (h : BlocksCore s) : BlocksCore (endRejoin s) := { h with rejoin := nofun }

/-! ### Entering MEMBER and the states of a join -/

theorem applyAll_group (fs : List Frame) (r : Replica) :
    (applyAll fs r).tag = r.tag ∧ (applyAll fs r).interval = r.interval := by
  induction fs generalizing r with
  | nil => exact ⟨rfl, rfl⟩
  | cons f fs ih =>
    obtain ⟨tag, interval⟩ := ih (applyFrame f r).replica
    exact ⟨tag.trans (applyFrame_tag f r), interval.trans (applyFrame_interval f r)⟩

theorem BlocksCore.admitted (c : RosterCopy) (fs : List Frame) (h : BlocksCore s) (life : s.life = .copying)
    (flight : s.round.inFlight = none) : BlocksCore (admitted (applyAll fs (installed c s)) s) where
  excluded := ⟨nofun, no_some (h.not_excluded (by simp [life]))⟩
  halted := ⟨nofun, no_some (h.not_halted (by simp [life]))⟩
  grouped _ := by
    obtain ⟨tag, interval⟩ := applyAll_group fs (installed c s)
    obtain ⟨target, -⟩ := h.targeted (.inr life)
    exact ⟨(congrArg Option.isSome tag).trans target, congrArg Option.isSome interval⟩
  cleared other := absurd rfl other
  hostIdle other := absurd rfl other
  monitor other := absurd rfl other
  leases other := absurd rfl other
  source other := absurd rfl other
  listening _ := h.listening (by simp [life])
  joining _ _ := rfl
  targeted := nofun
  copied := nofun
  entry inFlight := by
    have none : entryInFlight (Machine.admitted (applyAll fs (installed c s)) s) = entryInFlight s := rfl
    rw [none, entryInFlight, sourceInFlight, flight] at inFlight
    cases inFlight
  rejoin := no_some (h.no_rejoin (by simp [life]))
  leave _ := .inl rfl
  haltStop := nofun

theorem BlocksCore.found (h : BlocksCore s) (life : s.life = .listening) : BlocksCore (found s) where
  excluded := ⟨nofun, no_some (h.not_excluded (by simp [life]))⟩
  halted := ⟨nofun, no_some (h.not_halted (by simp [life]))⟩
  grouped _ := ⟨rfl, rfl⟩
  cleared other := absurd rfl other
  hostIdle other := absurd rfl other
  monitor other := absurd rfl other
  leases other := absurd rfl other
  source other := absurd rfl other
  listening _ := rfl
  joining _ _ := h.join_none (by simp [life]) (by simp [life])
  targeted := nofun
  copied := nofun
  entry := h.entry
  rejoin := no_some (h.no_rejoin (by simp [life]))
  leave _ := .inl rfl
  haltStop := nofun

theorem BlocksCore.target (c : Candidate) (h : BlocksCore s) (life : s.life = .listening) : BlocksCore (target c s) where
  excluded := ⟨nofun, no_some (h.not_excluded (by simp [life]))⟩
  halted := ⟨nofun, no_some (h.not_halted (by simp [life]))⟩
  grouped := nofun
  cleared _ _ := h.cleared (by simp [life]) (by simp [life])
  hostIdle _ := h.hostIdle (by simp [life])
  monitor _ := h.monitor (by simp [life])
  leases _ := h.leases (by simp [life])
  source _ := h.source (by simp [life])
  listening _ := rfl
  joining entering := absurd rfl entering
  targeted _ := ⟨rfl, rfl⟩
  copied := nofun
  entry _ := rfl
  rejoin := no_some (h.no_rejoin (by simp [life]))
  leave _ := .inr (.inl rfl)
  haltStop := nofun

theorem BlocksCore.beginCopy (f : Frame) (c : RosterCopy) (h : BlocksCore s) (life : s.life = .entering) :
    BlocksCore (beginCopy f c s) where
  excluded := ⟨nofun, no_some (h.not_excluded (by simp [life]))⟩
  halted := ⟨nofun, no_some (h.not_halted (by simp [life]))⟩
  grouped := nofun
  cleared _ _ := h.cleared (by simp [life]) (by simp [life])
  hostIdle _ := h.hostIdle (by simp [life])
  monitor _ := h.monitor (by simp [life])
  leases _ := h.leases (by simp [life])
  source _ := h.source (by simp [life])
  listening _ := h.listening (by simp [life])
  joining _ copying := absurd rfl copying
  targeted _ := ⟨(h.targeted (.inl life)).1, rfl⟩
  copied _ := ⟨rfl, rfl⟩
  entry := h.entry
  rejoin := no_some (h.no_rejoin (by simp [life]))
  leave _ := .inr (.inr rfl)
  haltStop := nofun

/-- The blocks of a join hold what the state requires when the join state changes. -/
theorem BlocksCore.join {j : JoinState} (h : BlocksCore s) (life : Joining s) (kept : JoinKept s.join j) :
    BlocksCore { s with join := j } :=
  { h with
    joining := fun entering copying => life.elim (fun l => absurd l entering) fun l => absurd l copying
    targeted := fun joining => by
      obtain ⟨target, tracked⟩ := h.targeted joining
      exact ⟨kept.target ▸ target, kept.tracked tracked⟩
    copied := fun copying => by
      obtain ⟨source, rosterCopy⟩ := h.copied copying
      exact ⟨kept.source ▸ source, kept.rosterCopy ▸ rosterCopy⟩
    entry := fun inFlight => kept.entryPending.trans (h.entry inFlight) }

theorem entryAccepted_join (s : State) :
    (entryAccepted s).join.target = s.join.target ∧ (entryAccepted s).join.tracked.isSome = s.join.tracked.isSome ∧
      (entryAccepted s).join.source = s.join.source ∧ (entryAccepted s).join.rosterCopy = s.join.rosterCopy := by
  unfold Machine.entryAccepted pendLeave pendAbort
  dsimp only
  split
  · split <;> simp
  · simp

/-- The pending ENTRY was in flight, so the station is in a join, and its LEAVE may be pending. -/
theorem BlocksCore.entryAccepted {fl : InFlight} (h : BlocksCore s) (flight : s.round.inFlight = some fl)
    (source : fl.offer.source = .entry) (wanted : fl.discarded = false) : BlocksCore (entryAccepted (landed s)) := by
  have pending : s.join.entryPending = true := h.entry (by simp [entryInFlight, sourceInFlight, flight, source, wanted])
  have life : Joining s := by
    by_contra other
    rw [h.join_none (fun l => other (.inl l)) fun l => other (.inr l)] at pending
    cases pending
  obtain ⟨target, tracked, source, rosterCopy⟩ := entryAccepted_join (landed s)
  rw [entryAccepted_eq]
  exact { h with
    joining := fun entering copying => (life.elim entering copying).elim
    targeted := fun joining => ⟨target ▸ (h.targeted joining).1, tracked ▸ (h.targeted joining).2⟩
    copied := fun copying => ⟨source ▸ (h.copied copying).1, rosterCopy ▸ (h.copied copying).2⟩
    entry := nofun
    leave := fun _ => .inr life }

/-- A frame from the ENTRY source is transmitted only while the ENTRY is pending (R74). -/
theorem transmission_entry {fl : InFlight} (h : transmission s = some fl) (source : fl.offer.source = .entry) :
    s.join.entryPending = true := by
  unfold transmission at h
  split at h
  · split at h
    · next o _ offered =>
      cases h
      have source : o.source = .entry := source
      simpa [stillOffered, source] using offered
    · cases h
  · cases h

theorem closeRequestWindow_entry (slots : RequestSlots) (h : entryInFlight s = true → s.join.entryPending = true)
    (inFlight : entryInFlight (closeRequestWindow slots s) = true) : s.join.entryPending = true := by
  unfold closeRequestWindow closeEmptyWindow at inFlight
  split at inFlight
  · split at inFlight
    · simp only [entryInFlight, sourceInFlight] at inFlight
      split at inFlight
      · next fl flight =>
        split at flight
        · exact transmission_entry flight (by simpa using (Bool.and_eq_true_iff.1 inFlight).1)
        · cases flight
      · cases inFlight
    · exact h inFlight
  · exact h inFlight

theorem receiveFrame_entryInFlight (line : List Byte) (s : State) :
    entryInFlight (receiveFrame line s) = entryInFlight s := by
  unfold receiveFrame
  split <;> rfl

theorem Change.keeps_blocks (change : Change F closing s t) (h : BlocksCore s) : BlocksCore t := by
  cases change with
  | inert h' =>
    rw [h'.eq]
    exact { h with }
  | exclude r => exact .exclude r s
  | changeReason r life =>
    exact { h with
      excluded := ⟨fun _ => rfl, fun _ => life⟩
      rejoin := fun _ => life
      haltStop := fun halted => by cases life.symm.trans halted }
  | enterHalted r stop notHost => exact .enterHalted r notHost s
  | leaveJoin life =>
    rcases life with life | life
    all_goals
      exact h.enterListening true (by simp [life]) (h.cleared (by simp [life]) (by simp [life]))
        (h.no_rejoin (by simp [life]))
  | clearReplica life =>
    exact { h with
      grouped := fun member => by cases life.symm.trans member
      cleared := fun _ _ => rfl }
  | pendLeave src life => exact { h with leave := fun _ => life }
  | clearStop => exact { h with haltStop := nofun }
  | pendStop r life => exact { h with haltStop := fun halted => absurd halted life }
  | addRecord r => exact { h with }
  | takeRecord records => exact { h with }
  | placeTicket t p =>
    rw [placeTicket_eq]
    exact { h with
      hostIdle := fun other => ⟨placeTicket_idle t p (h.hostIdle other).1, (h.hostIdle other).2⟩ }
  | freeTicket t =>
    refine { h with hostIdle := fun other => ⟨?_, (h.hostIdle other).2⟩ }
    rw [Machine.freeTicket, (h.hostIdle other).1, put_replicate]
  | allocate t k life => exact { h with hostIdle := fun other => absurd life other }
  | hostQueue q n w sub retry wait =>
    refine { h with hostIdle := fun other => ?_ }
    obtain ⟨tickets, queue, busyWait⟩ := h.hostIdle other
    refine ⟨tickets, List.sublist_nil.1 (queue ▸ sub), ?_⟩
    rcases wait with rfl | rfl
    · exact busyWait
    · rfl
  | appendHost f life room => exact { h with hostIdle := fun other => absurd life other }
  | attempt below => exact { h with }
  | busy w below acts => exact { h with hostIdle := fun other => absurd (h.acts acts) other }
  | inbound n room => exact { h with }
  | takeNote inbound => exact { h with }
  | leases ls length =>
    refine { h with leases := fun other => ?_ }
    obtain ⟨leases, expireSet⟩ := h.leases other
    exact ⟨List.length_eq_zero_iff.1 (by simpa [leases] using length), expireSet⟩
  | reserve l life room => exact { h with leases := fun other => absurd life other }
  | expireSet v acts => exact { h with leases := fun other => absurd (h.acts acts) other }
  | monitor m acts => exact { h with monitor := fun other => absurd (h.acts acts) other }
  | declines ds sub =>
    refine { h with source := fun other => ?_ }
    obtain ⟨declines, copy⟩ := h.source other
    exact ⟨List.sublist_nil.1 (declines ▸ sub), copy⟩
  | decline d acts fresh => exact { h with source := fun other => absurd (h.acts acts) other }
  | endCopy => exact { h with source := fun other => ⟨(h.source other).1, rfl⟩ }
  | keepCopy c' n copy shadow retry =>
    exact { h with source := fun other => by cases copy.symm.trans (h.source other).2 }
  | newCopy j acts => exact { h with source := fun other => absurd (h.acts acts) other }
  | copyAttempt below => exact { h with }
  | applied f life =>
    refine { h with grouped := fun _ => ?_, cleared := fun other => absurd life other }
    rw [applyFrame_tag, applyFrame_interval]
    exact h.grouped life
  | join j life kept => exact h.join life kept
  | entryAccepted flight source wanted => exact h.entryAccepted flight source wanted
  | beginCopy f c life => exact h.beginCopy f c life
  | lockCopy f k r life known body =>
    exact { h with joining := fun _ copying => absurd life copying }
  | admitted c fs life flight => exact h.admitted c fs life flight
  | listening l life => exact { h with listening := fun other => absurd life other }
  | target c life => exact h.target c life
  | landed close => exact { h with entry := nofun }
  | suppress close => exact { h with }
  | found other life => exact h.found life
  | start c other life =>
    rcases life with life | life
    all_goals
      exact (h.configure c).enterListening false (by simp [Machine.configure, life])
        (h.cleared (by simp [life]) (by simp [life])) rfl
  | restart other life =>
    exact (h.clearForRestart life).enterListening false (by simp [Machine.clearForRestart, life]) rfl
      (h.no_rejoin (by simp [life]))
  | rejoin other life =>
    exact h.endRejoin.enterListening false (by simp [Machine.endRejoin, life])
      (h.cleared (by simp [life]) (by simp [life])) rfl
  | placeRequest other => exact { h with }
  | closeRequest slots other =>
    rw [closeRequestWindow_eq]
    exact { h with entry := closeRequestWindow_entry slots h.entry }
  | receiveFrame line other =>
    rw [receiveFrame_eq]
    exact { h with entry := fun inFlight => h.entry (receiveFrame_entryInFlight line s ▸ inFlight) }

/-! ### Out of OFF, and in it -/

theorem Change.keeps_running (change : Change F closing s t) (h : Running s) : Running t := by
  cases change with
  | inert h' =>
    rw [h'.eq]
    exact ⟨h.life, h.config⟩
  | exclude r => exact ⟨nofun, h.config⟩
  | enterHalted r stop notHost => exact ⟨nofun, h.config⟩
  | leaveJoin life => exact ⟨nofun, h.config⟩
  | placeTicket t p =>
    rw [placeTicket_eq]
    exact ⟨h.life, h.config⟩
  | entryAccepted flight source wanted =>
    rw [entryAccepted_eq]
    exact ⟨h.life, h.config⟩
  | beginCopy f c life => exact ⟨nofun, h.config⟩
  | admitted c fs life flight => exact ⟨nofun, h.config⟩
  | target c life => exact ⟨nofun, h.config⟩
  | found other life => exact ⟨nofun, h.config⟩
  | start c other life => exact ⟨nofun, nofun⟩
  | restart other life => exact ⟨nofun, h.config⟩
  | rejoin other life => exact ⟨nofun, h.config⟩
  | closeRequest slots other =>
    rw [closeRequestWindow_eq]
    exact ⟨h.life, h.config⟩
  | receiveFrame line other =>
    rw [receiveFrame_eq]
    exact ⟨h.life, h.config⟩
  | _ => exact ⟨h.life, h.config⟩

theorem Silent.answered (h : Silent s) (bytes : List Byte) : Silent (answered bytes s) :=
  ⟨h.life, h.config, h.phase, h.inFlight, h.pendingStop⟩

theorem Silent.inStates {states : List Life} {take : State → State} (h : Silent s) (notTaken : .off ∉ states) :
    Silent (inStates states take s) := by
  rw [inStates_of_not_mem (by rwa [h.life])]
  exact h.answered _

theorem Silent.whenTaken {bytes : List Byte} {take : State → State} {P : State → Prop} (h : Silent s)
    (untouched : ∀ {u}, Silent u → P u) (taken : P (take s)) : P (whenTaken bytes take s) := by
  unfold Machine.whenTaken
  split
  · exact taken
  · exact untouched h

theorem Silent.takeNext (h : Silent s) : Silent (takeNext s) := by
  have freed (r : Record) (rest : List Record) : Silent (freeForRecord r { s with records := rest }) := by
    unfold freeForRecord
    split
    · exact ⟨h.life, h.config, h.phase, h.inFlight, h.pendingStop⟩
    · split <;> exact ⟨h.life, h.config, h.phase, h.inFlight, h.pendingStop⟩
  unfold Machine.takeNext
  split
  · exact h.answered _
  · exact (freed _ _).answered _

theorem Silent.takeInbound (h : Silent s) : Silent (takeInbound s) := by
  unfold Machine.takeInbound
  split <;> exact ⟨h.life, h.config, h.phase, h.inFlight, h.pendingStop⟩

/-- START takes a station out of OFF; nothing else but a byte of it does. -/
theorem Silent.takeStart (h : Silent s) (arg : Byte) : Silent (takeStart arg s) ∨ Running (takeStart arg s) := by
  rw [Machine.takeStart, inStates_of_mem (by rw [h.life]; decide)]
  split
  · exact .inr ⟨nofun, nofun⟩
  · exact .inl (h.answered _)

theorem Silent.startRound (h : Silent s) (known : Bool) : startRound known s = s := by
  simp [Machine.startRound, selectOffer, h.life]

theorem Silent.openRequestWindow (h : Silent s) : openRequestWindow s = s := by
  simp [Machine.openRequestWindow, mayOpen, h.life]

theorem Silent.closeRequestWindow (h : Silent s) (slots : RequestSlots) : closeRequestWindow slots s = s := by
  simp [Machine.closeRequestWindow, h.phase]

theorem Silent.closeEmptyWindow (h : Silent s) : closeEmptyWindow s = s := by
  simp [Machine.closeEmptyWindow, h.phase]

theorem Silent.receiveFrame (h : Silent s) (line : List Byte) : receiveFrame line s = s := by
  simp [Machine.receiveFrame, h.phase]

theorem Silent.closeVerdictWindow (h : Silent s) (slots : VerdictSlots) : closeVerdictWindow slots s = s := by
  simp [Machine.closeVerdictWindow, h.phase]

theorem Silent.limit (h : Silent s) (slots : VerdictSlots) (b : Bool) :
    Silent (if b then Machine.closeVerdictWindow slots s else s) := by
  rw [h.closeVerdictWindow, ite_self]
  exact h

theorem Silent.timers (h : Silent s) :
    Silent (beaconFallsDue s) ∧ (∀ peer, Silent (fallsSilent peer s)) ∧ Silent (quietWindowEnds s) ∧
      Silent (backoffEnds s) ∧ Silent (joinTimesOut s) ∧ Silent (copyStalls s) ∧ Silent (rejoinEnds s) ∧
      ∀ k, Silent (leaseCountsOut k s) := by
  refine ⟨?_, fun peer => ?_, ?_, ?_, ?_, ?_, ?_, fun k => ?_⟩
  · unfold beaconFallsDue
    split <;> exact ⟨h.life, h.config, h.phase, h.inFlight, h.pendingStop⟩
  · unfold fallsSilent
    split <;> exact ⟨h.life, h.config, h.phase, h.inFlight, h.pendingStop⟩
  · simpa [quietWindowEnds, h.life] using h
  · simpa [backoffEnds, h.life] using h
  · simpa [joinTimesOut, h.life] using h
  · simpa [copyStalls, h.life] using h
  · simpa [rejoinEnds, h.life] using h
  · unfold leaseCountsOut
    split <;> exact ⟨h.life, h.config, h.phase, h.inFlight, h.pendingStop⟩

theorem Silent.exec_of_row {c : Instr} (row : ∀ b, c ≠ .byteArrives b) (h : Silent s) :
    ∃ t, exec c s = .next t ∧ (Silent t ∨ Running t) := by
  have off {states : List Life} {take : State → State} {bytes : List Byte} (notTaken : .off ∉ states) :
      Silent (Machine.whenTaken bytes (Machine.inStates states take) s) := h.whenTaken id (h.inStates notTaken)
  obtain ⟨beacon, silence, quiet, backoff, joinTimer, stall, rejoin, lease⟩ := h.timers
  cases c with
  | powerOnReset pins => exact ⟨_, rfl, .inl ⟨rfl, rfl, rfl, rfl, rfl⟩⟩
  | selectFalls =>
    refine ⟨_, rfl, .inl ?_⟩
    unfold selectFalls
    split
    · exact ⟨h.life, h.config, h.phase, h.inFlight, h.pendingStop⟩
    · exact h
  | selectRises => exact ⟨_, rfl, .inl ⟨h.life, h.config, h.phase, h.inFlight, h.pendingStop⟩⟩
  | badCommand code =>
    refine ⟨_, rfl, .inl ?_⟩
    split
    · exact h.whenTaken id (h.answered _)
    · exact h
  | status => exact ⟨_, rfl, .inl (h.whenTaken id (h.answered _))⟩
  | start arg => exact ⟨_, rfl, h.whenTaken (P := fun u => Silent u ∨ Running u) .inl (h.takeStart arg)⟩
  | claim lock flags lease => exact ⟨_, rfl, .inl (off (by decide))⟩
  | yield lock => exact ⟨_, rfl, .inl (off (by decide))⟩
  | note dest topic length payload => exact ⟨_, rfl, .inl (off (by decide))⟩
  | next => exact ⟨_, rfl, .inl (h.whenTaken id h.takeNext)⟩
  | takeNote => exact ⟨_, rfl, .inl (h.whenTaken id h.takeInbound)⟩
  | lookLock lock => exact ⟨_, rfl, .inl (off (by decide))⟩
  | lookRoster => exact ⟨_, rfl, .inl (off (by decide))⟩
  | leave => exact ⟨_, rfl, .inl (off (by decide))⟩
  | stop => exact ⟨_, rfl, .inl (off (by decide))⟩
  | restart => exact ⟨_, rfl, .inl (off (by decide))⟩
  | softReset => exact ⟨_, rfl, .inl (h.whenTaken id ⟨rfl, rfl, rfl, rfl, rfl⟩)⟩
  | faults => exact ⟨_, rfl, .inl (h.whenTaken id (h.answered _))⟩
  | clearFaults =>
    exact ⟨_, rfl, .inl (h.whenTaken id ⟨h.life, h.config, h.phase, h.inFlight, h.pendingStop⟩)⟩
  | roundStart => exact ⟨s, congrArg Host.Outcome.next (h.startRound true), .inl h⟩
  | resynchronizingStart => exact ⟨s, congrArg Host.Outcome.next (h.startRound false), .inl h⟩
  | requestWindowOpen => exact ⟨s, congrArg Host.Outcome.next h.openRequestWindow, .inl h⟩
  | requestWindowClose slots => exact ⟨s, congrArg Host.Outcome.next (h.closeRequestWindow slots), .inl h⟩
  | emptyRequestWindow => exact ⟨s, congrArg Host.Outcome.next h.closeEmptyWindow, .inl h⟩
  | frameReceived line => exact ⟨s, congrArg Host.Outcome.next (h.receiveFrame line), .inl h⟩
  | verdictWindowClose slots => exact ⟨s, congrArg Host.Outcome.next (h.closeVerdictWindow slots), .inl h⟩
  | readbackMismatchLimit slots => exact ⟨_, rfl, .inl (h.limit slots _)⟩
  | soloVetoLimit slots => exact ⟨_, rfl, .inl (h.limit slots _)⟩
  | attemptLimitDrop slots => exact ⟨_, rfl, .inl (h.limit slots _)⟩
  | copyFrameDrop slots => exact ⟨_, rfl, .inl (h.limit slots _)⟩
  | busyLimitDrop slots => exact ⟨_, rfl, .inl (h.limit slots _)⟩
  | busyWaitExpiry => exact ⟨_, rfl, .inl ⟨h.life, h.config, h.phase, h.inFlight, h.pendingStop⟩⟩
  | ownBeaconTimerExpiry => exact ⟨_, rfl, .inl beacon⟩
  | silenceTimerExpiry peer => exact ⟨_, rfl, .inl (silence peer)⟩
  | quietWindowExpiry => exact ⟨_, rfl, .inl quiet⟩
  | backoffTimerExpiry => exact ⟨_, rfl, .inl backoff⟩
  | joinTimerExpiry => exact ⟨_, rfl, .inl joinTimer⟩
  | stallTimerExpiry => exact ⟨_, rfl, .inl stall⟩
  | rejoinTimerExpiry => exact ⟨_, rfl, .inl rejoin⟩
  | leaseCountOut lock => exact ⟨_, rfl, .inl (lease lock)⟩
  | byteArrives b => exact absurd rfl (row b)
  -- RECALL, whose constructor's name Mathlib keeps for a command of its own.
  | _ => exact ⟨_, rfl, .inl (off (by decide))⟩

theorem Silent.exec (c : Instr) (h : Silent s) : ∃ t, exec c s = .next t ∧ (Silent t ∨ Running t) := by
  by_cases byte : ∃ b, c = .byteArrives b
  · obtain ⟨b, rfl⟩ := byte
    rcases byteArrives_row_or_port b s with ⟨c, row, same⟩ | ⟨p, moved⟩
    · rw [same]
      exact h.exec_of_row row
    · exact ⟨_, moved, .inl ⟨h.life, h.config, h.phase, h.inFlight, h.pendingStop⟩⟩
  · exact h.exec_of_row fun b eq => byte ⟨b, eq⟩

/-! ### Closes, resets and steps -/

theorem closeVerdictWindow_keeps {P : State → Prop} (slots : VerdictSlots)
    (keep : ∀ {u v}, Change (fun _ => True) true u v → P u → P v)
    (counts : ∀ {u} (n : Nat), P u → P { u with round := { u.round with soloVetoes := n } })
    (ends : ∀ {u}, P u → P (endRound u)) (h : P s) : P (closeVerdictWindow slots s) := by
  unfold closeVerdictWindow
  split
  · next r _ _ =>
    refine ends ((closeSteps_changes slots (fun _ _ => trivial) s).keep keep ?_)
    obtain ⟨u, inert, after⟩ := closeCounts_eq r slots s
    rw [after]
    exact counts _ (keep (.inert inert) h)
  · exact h

theorem closeVerdictWindow_blocks (slots : VerdictSlots) (h : BlocksCore s) : BlocksCore (closeVerdictWindow slots s) :=
  closeVerdictWindow_keeps slots Change.keeps_blocks (fun _ h => { h with }) (fun h => { h with entry := nofun }) h

theorem closeVerdictWindow_running (slots : VerdictSlots) (h : Running s) : Running (closeVerdictWindow slots s) :=
  closeVerdictWindow_keeps slots Change.keeps_running (fun _ h => ⟨h.life, h.config⟩) (fun h => ⟨h.life, h.config⟩) h

theorem BlocksCore.reset : BlocksCore State.reset where
  excluded := ⟨nofun, nofun⟩
  halted := ⟨nofun, nofun⟩
  grouped := nofun
  cleared _ _ := rfl
  hostIdle _ := ⟨rfl, rfl, rfl⟩
  monitor _ := rfl
  leases _ := ⟨rfl, rfl⟩
  source _ := ⟨rfl, rfl⟩
  listening _ := rfl
  joining _ _ := rfl
  targeted := nofun
  copied := nofun
  entry := nofun
  rejoin := nofun
  leave := nofun
  haltStop := nofun

theorem Silent.reset : Silent State.reset := ⟨rfl, rfl, rfl, rfl, rfl⟩

theorem Outcome.blocks (h : Outcome s t) (core : BlocksCore s) : BlocksCore t := by
  cases h with
  | plain changes => exact changes.keep Change.keeps_blocks core
  | powered pins => exact { BlocksCore.reset with }
  | reset => exact { BlocksCore.reset with }
  | closed slots => exact closeVerdictWindow_blocks slots core

theorem Outcome.running (h : Outcome s t) (running : Running s) : Running t ∨ Silent t := by
  cases h with
  | plain changes => exact .inl (changes.keep Change.keeps_running running)
  | powered pins => exact .inr ⟨rfl, rfl, rfl, rfl, rfl⟩
  | reset => exact .inr ⟨rfl, rfl, rfl, rfl, rfl⟩
  | closed slots => exact .inl (closeVerdictWindow_running slots running)

/-- A step is no change, or a command's outcome on the state with the rest of the queue. -/
theorem step_cases (h : step s = .next t) :
    t = s ∨ ∃ c rest, s.pending = c :: rest ∧ exec c { s with pending := rest } = .next t := by
  unfold step at h
  split at h
  · exact .inl (Host.Outcome.next.inj h).symm
  · next c rest pending => exact .inr ⟨c, rest, pending, h⟩

/-- Settles O59. -/
theorem stepsKeepTheBlocksInAgreement : Obligations.StepsKeepTheBlocksInAgreement := by
  intro s t h next
  rcases step_cases next with rfl | ⟨c, rest, -, next⟩
  · exact h
  have agree : BlocksAgree { s with pending := rest } := { h with }
  obtain ⟨core, running | silent⟩ := blocksAgree_iff.1 agree
  · obtain ⟨t', next', outcome⟩ := exec_outcome c { s with pending := rest }
    cases next.symm.trans next'
    exact blocksAgree_iff.2 ⟨outcome.blocks core, outcome.running running⟩
  · obtain ⟨t', next', outcome⟩ := exec_outcome c { s with pending := rest }
    obtain ⟨t'', next'', off⟩ := silent.exec c
    cases next.symm.trans next'
    cases next.symm.trans next''
    exact blocksAgree_iff.2 ⟨outcome.blocks core, off.symm⟩

end Sys2Proof.Machine
end

section
/-!
The settlement of O60. Every elementary change keeps the lock records lawful wherever the station holds them, and keeps the bounds
of its queues, tables and retry counts; the solo-veto count with its suppression is followed over a close on its own.
-/

namespace Sys2Proof.Machine

variable {F : Frame → Prop} {closing : Bool} {s t : State} {locks : Locks} {x : StationId} {k : LockId}

/-! ### Applications keep the lock records lawful -/

theorem put_lawful {rec : LockRecord} (h : LocksLawful locks) (lawful : lawfulLock rec = true) :
    LocksLawful (put locks k rec) := by
  intro j
  rw [getElem_put]
  split
  · exact lawful
  · exact h j

theorem applyClaim_lawful {m : Mode} {c : ClaimClass} {form : Form} {t : TicketId} (h : LocksLawful locks) :
    LocksLawful (applyClaim x k m c form t locks).1 := by
  unfold applyClaim
  split
  · exact h
  · next granted =>
    have agrees := stateAgrees_of_lawful (h k)
    exact put_lawful h (grantedAtOnce_lawful agrees (claimOutcome_granted granted).2).1
  · next waits => exact put_lawful h (promote_lawful k (joinQueue_lawful (h k) (claimOutcome_waits waits).1))

theorem giveUp_lawful (x : StationId) (k : LockId) (h : LocksLawful locks) : LocksLawful (giveUp x k locks).1 :=
  put_lawful h (giveUp_shrunk k x (h k)).lawful

theorem applyYield_lawful {t : TicketId} (h : LocksLawful locks) : LocksLawful (applyYield x k t locks).1 := by
  unfold applyYield
  split
  · exact giveUp_lawful x k h
  · exact h

theorem applyRecall_lawful {target t : TicketId} (h : LocksLawful locks) :
    LocksLawful (applyRecall x k target t locks).1 := by
  unfold applyRecall
  dsimp only
  split
  · exact put_lawful h (eraseP_shrunk k _ (h k)).lawful
  · split <;> exact h

theorem release_lawful (x : StationId) (h : LocksLawful locks) : LocksLawful (release x locks).1 := by
  intro j
  rw [release_getElem]
  exact (releaseLock_shrunk j x (h j)).lawful

theorem remove_lawful {r : Replica} (x : StationId) (h : LocksLawful r.locks) : LocksLawful (remove x r).replica.locks := by
  cases state : r.roster[x] with
  | full =>
    rw [remove_of_full state, depart_locks]
    exact release_lawful x h
  | pending =>
    rw [remove_of_pending state]
    exact h
  | absent =>
    rw [remove_of_absent state]
    exact h

theorem ifFull_lawful {r : Replica} {a : Applied} (h : LocksLawful r.locks) (ha : LocksLawful a.replica.locks) :
    LocksLawful (ifFull x r a).replica.locks := by
  unfold ifFull
  split
  · exact ha
  · exact h

theorem decideEntry_locks (x : StationId) (i : Interval) (a : Applied) :
    (decideEntry x i a).replica.locks = a.replica.locks := by
  unfold decideEntry
  split
  · rfl
  split
  · rfl
  split <;> rfl

theorem applyAdmit_locks (x : StationId) (r : Replica) : (applyAdmit x r).replica.locks = r.locks := by
  unfold applyAdmit
  split <;> rfl

theorem applyFrame_lawful (f : Frame) {r : Replica} (h : LocksLawful r.locks) :
    LocksLawful (applyFrame f r).replica.locks := by
  show LocksLawful (ownEffect f r).replica.locks
  unfold ownEffect
  split
  · exact ifFull_lawful h (applyClaim_lawful h)
  · exact ifFull_lawful h (applyYield_lawful h)
  · exact ifFull_lawful h (applyRecall_lawful h)
  · exact ifFull_lawful h (giveUp_lawful _ _ h)
  · exact ifFull_lawful h (remove_lawful _ h)
  · exact remove_lawful _ h
  · rw [decideEntry_locks]
    exact remove_lawful _ h
  · rw [applyAdmit_locks]
    exact h
  all_goals exact h

theorem applyAll_lawful (fs : List Frame) {r : Replica} (h : LocksLawful r.locks) : LocksLawful (applyAll fs r).locks := by
  induction fs generalizing r with
  | nil => exact h
  | cons f fs ih => exact ih (applyFrame_lawful f h)

theorem founding_lawful : lawfulLock .founding = true := by decide

theorem cleared_lawful : LocksLawful Replica.cleared.locks := by
  intro k
  have founding : Replica.cleared.locks[k] = .founding := by simp [Replica.cleared]
  rw [founding]
  exact founding_lawful

theorem noCopies (k : LockId) : JoinState.none.lockCopies[k] = none := by simp [JoinState.none]

/-- An install sets lawful records: those received and founding records (R27). -/
theorem installed_lawful (c : RosterCopy) (h : TablesLawful s) : LocksLawful (installed c s).locks := by
  intro k
  have copied : (installed c s).locks[k] = (s.join.lockCopies[k]).getD .founding := by simp [installed]
  rw [copied]
  cases received : s.join.lockCopies[k] with
  | none => exact founding_lawful
  | some r => exact h.received k r received

/-! ### Every elementary change keeps the tables lawful -/

/-- No record is received in a join that is absent. -/
theorem nothing_received {p : LockId → LockRecord → Prop} (k : LockId) (r : LockRecord)
    (h : JoinState.none.lockCopies[k] = some r) : p k r := by
  rw [noCopies] at h
  cases h

theorem TablesLawful.exclude (r : ExclusionReason) (h : TablesLawful s) : TablesLawful (exclude r s) where
  replica := cleared_lawful
  shadow := nofun
  received := nothing_received
  frame := h.frame

theorem TablesLawful.enterListening (failed : Bool) (h : TablesLawful s) : TablesLawful (enterListening failed s) :=
  { h with received := nothing_received }

/-- A frame taken from the line meets the conditions of R34. -/
theorem frameOf_checks {bytes : List Byte} {f : Frame} (h : frameOf bytes = some f) : frameChecks f = true := by
  unfold frameOf at h
  split at h
  case h_2 => cases h
  split at h
  · cases h
  dsimp only at h
  split at h
  · cases h
  split at h
  · next checks =>
    cases h
    exact checks
  · cases h

theorem copyLock_lawful {f : Frame} {k : LockId} {r : LockRecord} (checks : frameChecks f = true)
    (body : f.body = .copyLock k r) : lawfulLock r = true := by
  simp only [frameChecks, body, Bool.and_eq_true] at checks
  exact checks.1

theorem closeRequestWindow_reception (slots : RequestSlots) (s : State) :
    (closeRequestWindow slots s).round.reception = s.round.reception := by
  unfold closeRequestWindow closeEmptyWindow
  split
  · split <;> rfl
  · rfl

theorem receiveFrame_checks (line : List Byte) (h : TablesLawful s) (rc : Reception) (f : Frame)
    (reception : (receiveFrame line s).round.reception = some rc) (frame : rc.frame = some f) : frameChecks f = true := by
  unfold receiveFrame at reception
  split at reception
  · cases reception
    exact frameOf_checks frame
  · exact h.frame rc f reception frame

theorem entryAccepted_lockCopies (s : State) : (entryAccepted s).join.lockCopies = s.join.lockCopies := by
  unfold entryAccepted pendLeave pendAbort
  dsimp only
  split
  · split <;> rfl
  · rfl

theorem Change.keeps_tables (change : Change (fun f => frameChecks f = true) closing s t) (h : TablesLawful s) :
    TablesLawful t := by
  cases change with
  | inert h' =>
    rw [h'.eq]
    exact { h with }
  | exclude r => exact h.exclude r
  | enterHalted r stop notHost => exact { h with shadow := nofun, received := nothing_received }
  | leaveJoin life => exact h.enterListening true
  | clearReplica life => exact { h with replica := cleared_lawful }
  | placeTicket t p =>
    rw [placeTicket_eq]
    exact { h with }
  | endCopy => exact { h with shadow := nofun }
  | keepCopy c' n copy shadow retry =>
    refine { h with shadow := fun c eq => ?_ }
    cases eq
    rw [shadow]
    exact h.shadow _ copy
  | newCopy j acts =>
    refine { h with shadow := fun c eq => ?_ }
    cases eq
    exact h.replica
  | applied f life => exact { h with replica := applyFrame_lawful f h.replica }
  | join j life kept => exact { h with received := fun k r copied => h.received k r (kept.lockCopies ▸ copied) }
  | entryAccepted flight source wanted =>
    have copies := entryAccepted_lockCopies (Machine.landed s)
    rw [entryAccepted_eq]
    exact { h with received := fun k r copied => h.received k r (copies ▸ copied) }
  | beginCopy f c life => exact { h with }
  | lockCopy f k r life known body =>
    refine { h with received := fun j rec copied => ?_ }
    dsimp only at copied
    rw [getElem_put] at copied
    split at copied
    · cases copied
      exact copyLock_lawful known body
    · exact h.received j rec copied
  | admitted c fs life flight =>
    exact { h with
      replica := applyAll_lawful fs (installed_lawful c h), shadow := nofun, received := nothing_received }
  | target c life => exact { h with received := nothing_received }
  | found other life =>
    refine { h with replica := fun k => ?_, shadow := nofun }
    have founding : (foundingReplica (self s) (s.foundingCount + 1) (configInterval s)).locks[k] = .founding := by
      simp [foundingReplica]
    exact (congrArg lawfulLock founding).trans founding_lawful
  | start c other life => exact TablesLawful.enterListening false { h with }
  | restart other life => exact TablesLawful.enterListening false { h with replica := cleared_lawful }
  | rejoin other life => exact TablesLawful.enterListening false { h with }
  | placeRequest other => exact { h with frame := fun _ _ none => by cases none }
  | closeRequest slots other =>
    have same := closeRequestWindow_reception slots s
    rw [closeRequestWindow_eq]
    exact { h with frame := fun rc f reception => h.frame rc f (same ▸ reception) }
  | receiveFrame line other =>
    have checks := receiveFrame_checks line h
    rw [receiveFrame_eq]
    exact { h with frame := checks }
  | _ => exact { h with }

/-! ### Every elementary change keeps the capacities -/

/-- `WithinCapacity` without the laws of the solo-veto count. -/
structure CapacityCore (s : State) : Prop where
  hostQueue    : s.hostQueue.length ≤ Config.hostQueueSize
  leases       : s.leases.length ≤ Config.leaseTableSize
  inbound      : s.inbound.length ≤ Config.inboundSize
  catchUp      : s.join.catchUp.length ≤ Config.catchUpSize
  declinedOnce : (s.declines.map Decline.joiner).Nodup
  coalesced    : coalescedOnce s.records = true
  attempts     : s.hostRetry.attempts < Config.attemptLimit
  busy         : s.hostRetry.busy < Config.busyLimit
  copyAttempts : s.copyRetry.attempts < Config.attemptLimit

/-- What the solo-veto count and its suppression hold (R65, R66). -/
structure SoloAgrees (s : State) : Prop where
  soloVetoes : s.round.soloVetoes ≤ Config.soloVetoLimit
  soloLimit  : s.round.suppressed = false → s.round.soloVetoes < Config.soloVetoLimit
  soloMarks  : s.round.suppressed = true → ∀ r, s.round.reception = some r → r.vetoLine2 = false

theorem withinCapacity_iff : WithinCapacity s ↔ CapacityCore s ∧ SoloAgrees s := by
  constructor
  · intro h
    exact ⟨{ h with }, { h with }⟩
  · rintro ⟨core, solo⟩
    refine { core, solo with declines := ?_ }
    rw [← List.length_map Decline.joiner]
    exact core.declinedOnce.length_le_card.trans (by simp)

theorem coalescedOnce_iff {q : List Record} :
    coalescedOnce q = true ↔
      q.count .rosterChanged ≤ 1 ∧ q.count .noteArrived ≤ 1 ∧ (q.filter isStateChanged).length ≤ 1 := by
  simp [coalescedOnce, and_assoc]

theorem coalescedOnce_sublist {q q' : List Record} (sub : q'.Sublist q) (h : coalescedOnce q = true) :
    coalescedOnce q' = true := by
  obtain ⟨roster, note, state⟩ := coalescedOnce_iff.1 h
  exact coalescedOnce_iff.2 ⟨(sub.count_le _).trans roster, (sub.count_le _).trans note,
    (sub.filter _).length_le.trans state⟩

/-- A record at the tail, the first of its coalesced kind. -/
theorem append_coalesced {q : List Record} {r : Record} (h : coalescedOnce q = true)
    (roster : r = .rosterChanged → q.count .rosterChanged = 0) (note : r = .noteArrived → q.count .noteArrived = 0)
    (state : isStateChanged r = true → (q.filter isStateChanged).length = 0) : coalescedOnce (q ++ [r]) = true := by
  obtain ⟨rosters, notes, states⟩ := coalescedOnce_iff.1 h
  refine coalescedOnce_iff.2 ⟨?_, ?_, ?_⟩
  · by_cases same : r = .rosterChanged
    · simp [same, roster same]
    · simpa [List.count_append, same] using rosters
  · by_cases same : r = .noteArrived
    · simp [same, note same]
    · simpa [List.count_append, same] using notes
  · rw [List.filter_append, List.length_append]
    by_cases same : isStateChanged r = true
    · simp [same, state same]
    · simpa [same] using states

/-- A STATE_CHANGED in the place of another (R173). -/
theorem replaced_coalesced {q : List Record} {r : Record} (h : coalescedOnce q = true) (state : isStateChanged r = true) :
    coalescedOnce (q.map fun x => if isStateChanged x then r else x) = true := by
  have counted {p : Record → Bool} (same : ∀ x, p (if isStateChanged x then r else x) = p x) :
      (q.map fun x => if isStateChanged x then r else x).countP p = q.countP p := by
    rw [List.countP_map]
    exact List.countP_congr fun x _ => by simp [same]
  have other {a : Record} (notState : isStateChanged a = false) (x : Record) :
      ((if isStateChanged x then r else x) == a) = (x == a) := by
    split
    · next changed =>
      have notX : x ≠ a := fun eq => by simp [eq, notState] at changed
      have notR : r ≠ a := fun eq => by simp [eq, notState] at state
      simp [notX, notR]
    · rfl
  obtain ⟨rosters, notes, states⟩ := coalescedOnce_iff.1 h
  refine coalescedOnce_iff.2 ⟨?_, ?_, ?_⟩
  · rwa [List.count, counted (other rfl)]
  · rwa [List.count, counted (other rfl)]
  · rw [← List.countP_eq_length_filter, counted, List.countP_eq_length_filter]
    · exact states
    · intro x
      split
      · next changed => rw [state, changed]
      · rfl

theorem enqueue_coalesced {q : List Record} (r : Record) (h : coalescedOnce q = true) :
    coalescedOnce (enqueue r q) = true := by
  cases r with
  | rosterChanged =>
    unfold enqueue
    dsimp only
    split
    · exact h
    · next fresh => exact append_coalesced h (fun _ => List.count_eq_zero.2 (by simpa using fresh)) nofun nofun
  | noteArrived =>
    unfold enqueue
    dsimp only
    split
    · exact h
    · next fresh => exact append_coalesced h nofun (fun _ => List.count_eq_zero.2 (by simpa using fresh)) nofun
  | stateChanged c =>
    unfold enqueue
    dsimp only
    split
    · exact replaced_coalesced h rfl
    · next fresh => exact append_coalesced h nofun nofun fun _ => by simpa using fresh
  | _ => exact append_coalesced h nofun nofun nofun

theorem restartRecords_coalesced (c : StateChange) (s : State) : coalescedOnce (restartRecords c s).records = true := by
  unfold restartRecords
  dsimp only
  split <;> rfl

theorem CapacityCore.exclude (r : ExclusionReason) (h : CapacityCore s) : CapacityCore (exclude r s) where
  hostQueue := Nat.zero_le _
  leases := Nat.zero_le _
  inbound := h.inbound
  catchUp := Nat.zero_le _
  declinedOnce := List.nodup_nil
  coalesced := restartRecords_coalesced _ _
  attempts := Nat.zero_lt_succ _
  busy := Nat.zero_lt_succ _
  copyAttempts := Nat.zero_lt_succ _

theorem CapacityCore.enterHalted (r : StopReason) (stop : Option StopReason) (h : CapacityCore s) :
    CapacityCore (enterHalted r stop s) where
  hostQueue := Nat.zero_le _
  leases := Nat.zero_le _
  inbound := h.inbound
  catchUp := Nat.zero_le _
  declinedOnce := List.nodup_nil
  coalesced := restartRecords_coalesced _ _
  attempts := Nat.zero_lt_succ _
  busy := Nat.zero_lt_succ _
  copyAttempts := Nat.zero_lt_succ _

theorem CapacityCore.enterListening (failed : Bool) (h : CapacityCore s) : CapacityCore (enterListening failed s) :=
  { h with catchUp := Nat.zero_le _ }

theorem CapacityCore.recorded (r : Record) (h : CapacityCore s) : CapacityCore (addRecord r s) :=
  { h with coalesced := enqueue_coalesced r h.coalesced }

theorem entryAccepted_catchUp (s : State) : (entryAccepted s).join.catchUp = [] := by
  unfold entryAccepted pendLeave pendAbort
  dsimp only
  split
  · split <;> rfl
  · rfl

theorem zero_or_same {n m : Retry} {size : Nat} (f : Retry → Nat) (same : n = m ∨ n = .zero) (zero : f .zero = 0)
    (h : f m < size) : f n < size := by
  rcases same with rfl | rfl
  · exact h
  · omega

theorem Change.keeps_capacity (change : Change F closing s t) (h : CapacityCore s) : CapacityCore t := by
  cases change with
  | inert h' =>
    rw [h'.eq]
    exact { h with }
  | exclude r => exact h.exclude r
  | changeReason r life => exact CapacityCore.recorded _ { h with }
  | enterHalted r stop notHost => exact h.enterHalted r stop
  | leaveJoin life => exact h.enterListening true
  | addRecord r => exact h.recorded r
  | takeRecord records =>
    exact { h with coalesced := coalescedOnce_sublist (records ▸ List.sublist_cons_self _ _) h.coalesced }
  | placeTicket t p =>
    rw [placeTicket_eq]
    exact { h with }
  | hostQueue q n w sub retry wait =>
    exact { h with
      hostQueue := sub.length_le.trans h.hostQueue
      attempts := zero_or_same Retry.attempts retry rfl h.attempts
      busy := zero_or_same Retry.busy retry rfl h.busy }
  | appendHost f life room => exact { h with hostQueue := by simpa using room }
  | attempt below => exact { h with attempts := below }
  | busy w below acts => exact { h with busy := below }
  | inbound n room => exact { h with inbound := by simpa using room }
  | takeNote inbound =>
    have held := h.inbound
    rw [inbound] at held
    exact { h with inbound := (Nat.le_succ _).trans held }
  | leases ls length => exact { h with leases := length.trans h.leases }
  | reserve l life room => exact { h with leases := by simpa using room }
  | declines ds sub => exact { h with declinedOnce := h.declinedOnce.sublist (sub.map _) }
  | decline d acts fresh =>
    refine { h with declinedOnce := ?_ }
    simpa [List.nodup_append, h.declinedOnce] using fresh
  | endCopy => exact { h with copyAttempts := Nat.zero_lt_succ _ }
  | keepCopy c' n copy shadow retry =>
    exact { h with copyAttempts := zero_or_same Retry.attempts retry rfl h.copyAttempts }
  | newCopy j acts => exact { h with copyAttempts := Nat.zero_lt_succ _ }
  | copyAttempt below => exact { h with copyAttempts := below }
  | join j life kept => exact { h with catchUp := kept.catchUp.trans (max_le h.catchUp le_rfl) }
  | entryAccepted flight source wanted =>
    have catchUp := entryAccepted_catchUp (Machine.landed s)
    rw [entryAccepted_eq]
    refine { h with catchUp := ?_ }
    rw [catchUp]
    exact Nat.zero_le _
  | admitted c fs life flight =>
    refine CapacityCore.recorded _ ?_
    exact { h with leases := Nat.zero_le _, catchUp := Nat.zero_le _, declinedOnce := List.nodup_nil }
  | target c life => exact { h with catchUp := Nat.zero_le _ }
  | found other life =>
    refine CapacityCore.recorded _ ?_
    exact { h with leases := Nat.zero_le _, declinedOnce := List.nodup_nil }
  | start c other life => exact CapacityCore.enterListening false { h with }
  | restart other life => exact CapacityCore.enterListening false { h with }
  | rejoin other life => exact CapacityCore.enterListening false { h with }
  | closeRequest slots other =>
    rw [closeRequestWindow_eq]
    exact { h with }
  | receiveFrame line other =>
    rw [receiveFrame_eq]
    exact { h with }
  | _ => exact { h with }

/-! ### The solo-veto count -/

theorem receiveFrame_solo (line : List Byte) (h : SoloAgrees s) : SoloAgrees (receiveFrame line s) := by
  unfold receiveFrame
  split
  · refine { h with soloMarks := fun suppressed r reception => ?_ }
    cases reception
    have suppressed : s.round.suppressed = true := suppressed
    simp [receptionOf, suppressed]
  · exact h

theorem closeRequestWindow_solo (slots : RequestSlots) (h : SoloAgrees s) : SoloAgrees (closeRequestWindow slots s) := by
  unfold closeRequestWindow closeEmptyWindow
  split
  · split <;> exact { h with }
  · exact h

/-- The commands that close no verdict window keep what the solo-veto count holds. -/
theorem Change.keeps_solo (change : Change F false s t) (h : SoloAgrees s) : SoloAgrees t := by
  cases change with
  | inert h' =>
    rw [h'.eq]
    exact { h with }
  | exclude r => exact { h with soloVetoes := Nat.zero_le _, soloLimit := fun _ => Nat.zero_lt_succ _ }
  | placeTicket t p =>
    rw [placeTicket_eq]
    exact { h with }
  | entryAccepted flight source wanted =>
    rw [entryAccepted_eq]
    exact { h with }
  | landed close => cases close
  | suppress close => cases close
  | start c other life =>
    exact { soloVetoes := Nat.zero_le _, soloLimit := fun _ => Nat.zero_lt_succ _, soloMarks := nofun }
  | restart other life =>
    exact { soloVetoes := Nat.zero_le _, soloLimit := fun _ => Nat.zero_lt_succ _, soloMarks := nofun }
  | rejoin other life =>
    have below : (if s.round.suppressed then 0 else s.round.soloVetoes) < Config.soloVetoLimit := by
      split
      · exact Nat.zero_lt_succ _
      · next free => exact h.soloLimit (by simpa using free)
    exact { soloVetoes := below.le, soloLimit := fun _ => below, soloMarks := nofun }
  | placeRequest other => exact { h with soloMarks := fun _ _ none => by cases none }
  | closeRequest slots other => exact closeRequestWindow_solo slots h
  | receiveFrame line other => exact receiveFrame_solo line h
  | _ => exact { h with }

/-- The count is within its limit, and at it only in suppression. -/
structure SoloBounded (s : State) : Prop where
  soloVetoes : s.round.soloVetoes ≤ Config.soloVetoLimit
  soloLimit  : s.round.suppressed = false → s.round.soloVetoes < Config.soloVetoLimit

/-- The changes of a close take the solo-veto count to 0 or leave it, and leave suppression or begin it. -/
theorem Change.solo_of_close (change : Change F true s t) :
    (t.round.soloVetoes = 0 ∨ t.round.soloVetoes = s.round.soloVetoes) ∧
      (t.round.suppressed = true ∨ t.round.suppressed = s.round.suppressed) := by
  cases change with
  | inert h' =>
    rw [h'.eq]
    exact ⟨.inr rfl, .inr rfl⟩
  | exclude r => exact ⟨.inl rfl, .inr rfl⟩
  | placeTicket t p =>
    rw [placeTicket_eq]
    exact ⟨.inr rfl, .inr rfl⟩
  | entryAccepted flight source wanted =>
    rw [entryAccepted_eq]
    exact ⟨.inr rfl, .inr rfl⟩
  | suppress close => exact ⟨.inr rfl, .inl rfl⟩
  | found other life => cases other
  | start c other life => cases other
  | restart other life => cases other
  | rejoin other life => cases other
  | placeRequest other => cases other
  | closeRequest slots other => cases other
  | receiveFrame line other => cases other
  | _ => exact ⟨.inr rfl, .inr rfl⟩

theorem Change.keeps_bounded (change : Change F true s t) (h : SoloBounded s) : SoloBounded t := by
  obtain ⟨count, suppression⟩ := change.solo_of_close
  constructor
  · rcases count with zero | same
    · exact zero ▸ Nat.zero_le _
    · exact same ▸ h.soloVetoes
  · intro free
    rcases count with zero | same
    · exact zero ▸ Nat.zero_lt_succ _
    · rcases suppression with suppressed | kept
      · rw [suppressed] at free
        cases free
      · exact same ▸ h.soloLimit (kept ▸ free)

theorem Change.keeps_suppressed (change : Change F true s t) (h : s.round.suppressed = true) :
    t.round.suppressed = true := by
  obtain ⟨-, suppressed | kept⟩ := change.solo_of_close
  · exact suppressed
  · exact kept.trans h

theorem Change.keeps_count (change : Change F true s t) (h : s.round.soloVetoes ≤ Config.soloVetoLimit) :
    t.round.soloVetoes ≤ Config.soloVetoLimit := by
  obtain ⟨zero | same, -⟩ := change.solo_of_close
  · exact zero ▸ Nat.zero_le _
  · exact same ▸ h

/-- At the limit suppression begins (R66). -/
theorem closeLimits_suppressed (r : Reception) (s : State) : (closeLimits r true s).round.suppressed = true :=
  (soloVetoAction_changes (F := fun _ => True) _).keep Change.keeps_suppressed rfl

theorem soloVetoesAfter_le (r : Reception) (slots : VerdictSlots) (s : State) :
    soloVetoesAfter r slots s ≤ s.round.soloVetoes + 1 := by
  unfold soloVetoesAfter
  split
  · split
    · omega
    · split <;> omega
  · split <;> omega

theorem soloVetoesAfter_unmarked {r : Reception} (slots : VerdictSlots) (h : r.vetoLine2 = false) :
    soloVetoesAfter r slots s ≤ s.round.soloVetoes := by
  rw [soloVetoesAfter, h]
  simp only [Bool.false_eq_true, if_false]
  split <;> omega

theorem closeSteps_bounded {r : Reception} (slots : VerdictSlots) (h : SoloAgrees s) (reception : s.round.reception = some r) :
    SoloBounded (closeSteps r slots s) := by
  have steps := closeSteps_changes (F := fun _ => True) (r := r) slots (fun _ _ => trivial) s
  obtain ⟨u, inert, counts⟩ := closeCounts_eq r slots s
  have count : (closeCounts r slots s).round.soloVetoes = soloVetoesAfter r slots s := by rw [counts]
  have suppression : (closeCounts r slots s).round.suppressed = s.round.suppressed := by
    rw [counts, inert.eq]
    rfl
  cases suppressed : s.round.suppressed with
  | true =>
    refine steps.keep Change.keeps_bounded ⟨?_, fun free => ?_⟩
    · rw [count]
      exact (soloVetoesAfter_unmarked slots (h.soloMarks suppressed r reception)).trans h.soloVetoes
    · rw [suppression, suppressed] at free
      cases free
  | false =>
    have after : soloVetoesAfter r slots s ≤ Config.soloVetoLimit :=
      (soloVetoesAfter_le r slots s).trans (h.soloLimit suppressed)
    rcases Nat.lt_or_eq_of_le after with below | limit
    · exact steps.keep Change.keeps_bounded ⟨count ▸ after, fun _ => count ▸ below⟩
    · have reached : soloVetoReached r slots s = true := by
        have before := (h.soloLimit suppressed).ne
        simp [soloVetoReached, limit, before]
      refine ⟨steps.keep Change.keeps_count (count ▸ after), fun free => ?_⟩
      have landed : (closeLimits r (soloVetoReached r slots s) (closeOwnFrame slots (closeCounts r slots s))).round.inFlight =
          none :=
        (closeLimits_changes (F := fun _ => True) _ _ _).keep Change.keeps_landed (closeOwnFrame_landed slots _)
      have suppressed' : (closeSteps r slots s).round.suppressed = true :=
        (closeHandOn_changes (F := fun _ => True) slots (fun _ _ => trivial) landed).keep Change.keeps_suppressed
          (by rw [reached]; exact closeLimits_suppressed r _)
      rw [suppressed'] at free
      cases free

theorem closeVerdictWindow_solo (slots : VerdictSlots) (h : SoloAgrees s) : SoloAgrees (closeVerdictWindow slots s) := by
  unfold closeVerdictWindow
  split
  · next reception =>
    have bounded := closeSteps_bounded slots h reception
    exact { bounded with soloMarks := fun _ _ none => by cases none }
  · exact h

/-! ### Steps -/

theorem closeVerdictWindow_capacity (slots : VerdictSlots) (h : CapacityCore s) :
    CapacityCore (closeVerdictWindow slots s) :=
  closeVerdictWindow_keeps slots Change.keeps_capacity (fun _ h => { h with }) (fun h => { h with }) h

theorem closeVerdictWindow_tables (slots : VerdictSlots) (h : TablesLawful s) :
    TablesLawful (closeVerdictWindow slots s) := by
  unfold closeVerdictWindow
  split
  · next r _ reception =>
    obtain ⟨u, inert, counts⟩ := closeCounts_eq r slots s
    have counted : TablesLawful (closeCounts r slots s) := by
      rw [counts, inert.eq]
      exact { h with }
    have closed := (closeSteps_changes slots (fun f frame => h.frame r f reception frame) s).keep Change.keeps_tables counted
    exact { closed with frame := fun _ _ none => by cases none }
  · exact h

theorem TablesLawful.reset : TablesLawful State.reset where
  replica := cleared_lawful
  shadow := nofun
  received := nothing_received
  frame _ _ none := by cases none

theorem CapacityCore.reset : CapacityCore State.reset where
  hostQueue := Nat.zero_le _
  leases := Nat.zero_le _
  inbound := Nat.zero_le _
  catchUp := Nat.zero_le _
  declinedOnce := List.nodup_nil
  coalesced := rfl
  attempts := Nat.zero_lt_succ _
  busy := Nat.zero_lt_succ _
  copyAttempts := Nat.zero_lt_succ _

theorem SoloAgrees.reset : SoloAgrees State.reset where
  soloVetoes := Nat.zero_le _
  soloLimit _ := Nat.zero_lt_succ _
  soloMarks := nofun

theorem Outcome.tables (h : Outcome s t) (tables : TablesLawful s) : TablesLawful t := by
  cases h with
  | plain changes => exact changes.keep Change.keeps_tables tables
  | powered pins => exact { TablesLawful.reset with }
  | reset => exact { TablesLawful.reset with }
  | closed slots => exact closeVerdictWindow_tables slots tables

theorem Outcome.capacity (h : Outcome s t) (capacity : CapacityCore s) : CapacityCore t := by
  cases h with
  | plain changes => exact changes.keep Change.keeps_capacity capacity
  | powered pins => exact { CapacityCore.reset with }
  | reset => exact { CapacityCore.reset with }
  | closed slots => exact closeVerdictWindow_capacity slots capacity

theorem Outcome.solo (h : Outcome s t) (solo : SoloAgrees s) : SoloAgrees t := by
  cases h with
  | plain changes => exact changes.keep Change.keeps_solo solo
  | powered pins => exact { SoloAgrees.reset with }
  | reset => exact { SoloAgrees.reset with }
  | closed slots => exact closeVerdictWindow_solo slots solo

/-- Settles O60. -/
theorem stepsKeepTablesAndCapacities : Obligations.StepsKeepTablesAndCapacities := by
  intro s t next
  rcases step_cases next with rfl | ⟨c, rest, -, next⟩
  · exact ⟨id, id⟩
  obtain ⟨t', next', outcome⟩ := exec_outcome c { s with pending := rest }
  cases next.symm.trans next'
  refine ⟨fun tables => outcome.tables { tables with }, fun capacity => ?_⟩
  obtain ⟨core, solo⟩ := withinCapacity_iff.1 capacity
  exact withinCapacity_iff.2 ⟨outcome.capacity { core with }, outcome.solo { solo with }⟩

/-! ### A founder's replica -/

theorem foundingReplica_lock (id : StationId) (count : Byte) (interval : Interval) (k : LockId) :
    (foundingReplica id count interval).locks[k] = .founding := by simp [foundingReplica]

theorem foundingReplica_laws (id : StationId) (count : Byte) (interval : Interval) :
    ReplicaLaws (foundingReplica id count interval) := by
  have lock := foundingReplica_lock id count interval
  have noQueue (k : LockId) : (foundingReplica id count interval).locks[k].queue = [] := by rw [lock]; rfl
  refine ⟨fun k => ?_, fun k => ?_, ⟨?_, fun x => ?_⟩, fun k x stands => ?_, fun x => ?_, nofun⟩
  · rw [lock]
    exact founding_lawful
  · rw [lock]
    rfl
  · simp only [poolInUse, noQueue]
    decide
  · simp only [entriesOf, noQueue, List.filter_nil]
    decide
  · rw [lock] at stands
    simp [standsIn, LockRecord.founding, has] at stands
  · have notPending : (foundingReplica id count interval).roster[x] ≠ .pending := by
      simp only [foundingReplica, getElem_put]
      split <;> simp
    exact ⟨fun pending => absurd pending notPending, nofun⟩

/-- Settles O58: the reset state by its fields, and a founder's replica by its one FULL station and its founding records. -/
theorem resetMeetsTheInvariants : Obligations.ResetMeetsTheInvariants :=
  ⟨blocksAgree_iff.2 ⟨.reset, .inr .reset⟩, .reset, withinCapacity_iff.2 ⟨.reset, .reset⟩, foundingReplica_laws⟩

end Sys2Proof.Machine
end

section
/-! The settlements of O3, O4 and O6 to O9: transactions, refusals, and the commands that queue a frame. -/

namespace Sys2Proof.Machine

variable {s t : State}

/-! ### Transactions and bytes -/

/-- Settles O3. -/
theorem selectOpensAndEndsATransaction : Obligations.SelectOpensAndEndsATransaction := by
  intro s
  refine ⟨fun idle => ?_, rfl⟩
  exact congrArg Host.Outcome.next (if_pos idle)

/-- Settles O4. -/
theorem byteActsByPortPhase : Obligations.ByteActsByPortPhase := by
  intro b s
  refine ⟨fun idle => ?_, fun collecting incomplete => ?_, fun r rest responding response => ?_, fun discarding => ?_⟩
  · simp [exec, execByteArrives, arrive, idle]
  · refine congrArg Host.Outcome.next ?_
    unfold arrive collectByte
    rcases collecting with phase | phase <;> simp [phase, incomplete, filler]
  · refine congrArg Host.Outcome.next ?_
    cases rest <;> simp [arrive, responding, clockOut, response]
  · simp [exec, execByteArrives, arrive, discarding, filler]

/-! ### Refusals -/

/-- A host command whose last byte the port awaits takes its bytes (R160). -/
theorem exec_collected {c : Instr} {bytes : List Byte} {b : Byte} (wf : c.wellFormed = true)
    (sent : commandBytes c = some (bytes ++ [b])) (h : Collected bytes s) :
    exec c s = .next (takeBytes (bytes ++ [b]) s) := by
  rw [exec_host wf sent, whenTaken_of_collected _ h (commandComplete_of_row wf sent)]

theorem life_mem_all (s : State) :
    s.life ∈ [Life.off, .listening, .entering, .copying, .member, .excluded, .halted] := by
  cases s.life <;> decide

/-- A command in a state it is not taken in is answered BAD_STATE (R163). -/
theorem exec_badState {c : Instr} {bytes : List Byte} {b : Byte} {states : List Life} (wf : c.wellFormed = true)
    (sent : commandBytes c = some (bytes ++ [b])) (h : Collected bytes s) (taken : takenIn c = some states)
    (notIn : s.life ∉ states) : exec c s = .next (answered [0x02] s) := by
  rw [exec_collected wf sent h]
  refine congrArg Host.Outcome.next ?_
  cases c with
  | start arg =>
    cases taken
    rw [← Option.some.inj sent]
    show takeStart arg s = _
    exact inStates_of_not_mem notIn
  | claim lock flags lease =>
    cases taken
    rw [← Option.some.inj sent]
    show takeClaim lock flags lease s = _
    exact inStates_of_not_mem notIn
  | yield lock =>
    cases taken
    rw [← Option.some.inj sent]
    show takeYield lock s = _
    exact inStates_of_not_mem notIn
  | note dest topic length payload =>
    cases taken
    rw [← Option.some.inj sent]
    show takeNoteCommand dest topic length payload s = _
    exact inStates_of_not_mem notIn
  | lookLock lock =>
    cases taken
    rw [← Option.some.inj sent]
    show takeLookLock lock s = _
    exact inStates_of_not_mem notIn
  | lookRoster =>
    cases taken
    rw [← Option.some.inj sent]
    show takeLookRoster s = _
    exact inStates_of_not_mem notIn
  | leave =>
    cases taken
    rw [← Option.some.inj sent]
    show takeLeave s = _
    exact inStates_of_not_mem notIn
  | stop =>
    cases taken
    rw [← Option.some.inj sent]
    show takeStop s = _
    exact inStates_of_not_mem notIn
  | restart =>
    cases taken
    rw [← Option.some.inj sent]
    show takeRestart s = _
    exact inStates_of_not_mem notIn
  | badCommand | status | next | takeNote | softReset | faults | clearFaults =>
    cases taken
    exact absurd (life_mem_all s) notIn
  | powerOnReset | selectFalls | selectRises | roundStart | resynchronizingStart | requestWindowOpen | requestWindowClose
  | emptyRequestWindow | frameReceived | verdictWindowClose | readbackMismatchLimit | soloVetoLimit | attemptLimitDrop
  | copyFrameDrop | busyLimitDrop | busyWaitExpiry | ownBeaconTimerExpiry | silenceTimerExpiry | quietWindowExpiry
  | backoffTimerExpiry | joinTimerExpiry | stallTimerExpiry | rejoinTimerExpiry | leaseCountOut | byteArrives => cases taken
  -- RECALL, whose constructor's name Mathlib keeps for a command of its own.
  | _ lock target =>
    cases taken
    rw [← Option.some.inj sent]
    show takeRecall lock target s = _
    exact inStates_of_not_mem notIn

/-- An argument out of its range is answered BAD_ARG (R162). -/
theorem startConfigOf_none {arg : Byte} (h : arg.extractLsb' 3 3 ≠ 0 ∨ 4 < (arg.extractLsb' 0 3).toNat) :
    startConfigOf arg = none := by
  revert arg
  decide

theorem claimFlagsOf_none {flags : Byte} (h : flags.extractLsb' 0 5 ≠ 0) : claimFlagsOf flags = none := if_pos h

theorem takeClaim_badArg {lock flags lease : Byte} (life : s.life = .member)
    (h : 63 < lock.toNat ∨ flags.extractLsb' 0 5 ≠ 0) : takeClaim lock flags lease s = answered [0x03] s := by
  rw [takeClaim, inStates_of_mem (by simp [life])]
  rcases h with range | bits
  · rw [lockOf_none range]
    rfl
  · rw [claimFlagsOf_none bits]
    cases lockOf lock <;> rfl

theorem takeRecall_badArg {lock target : Byte} (life : s.life = .member) (h : 63 < lock.toNat ∨ 15 < target.toNat) :
    takeRecall lock target s = answered [0x03] s := by
  rw [takeRecall, inStates_of_mem (by simp [life])]
  rcases h with range | range
  · rw [lockOf_none range]
    rfl
  · rw [smallOf_none range]
    cases lockOf lock <;> rfl

theorem takeRecall_of_args {lock target : Byte} {k : LockId} {t : TicketId} (life : s.life = .member)
    (hk : lock.toNat = k.val) (ht : target.toNat = t.val) : takeRecall lock target s = acceptRecall k t s := by
  rw [takeRecall, inStates_of_mem (by simp [life]), lockOf_of_toNat hk, smallOf_of_toNat ht]

/-- A RECALL whose target is no CLAIM of the lock, QUEUED or WAITING (R169). -/
theorem acceptRecall_badArg {k : LockId} {t : TicketId} (queued : s.tickets[t] ≠ some { kind := .claim k, place := .queued })
    (waiting : s.tickets[t] ≠ some { kind := .claim k, place := .waiting }) :
    acceptRecall k t s = answered [0x03] s := by
  unfold acceptRecall
  split
  · next k' ticket =>
    rw [if_pos (show k' ≠ k from fun same => queued (same ▸ ticket))]
    rfl
  · next k' ticket =>
    rw [if_pos (show k' ≠ k from fun same => waiting (same ▸ ticket))]
    rfl
  · rfl

theorem takeNoteCommand_badArg {dest topic length : Byte} {payload : List Byte} (life : s.life = .member)
    (h : 15 < dest.toNat ∨ 15 < topic.toNat ∨ 16 < length.toNat ∨ dest.toNat = s.straps.id.val) :
    takeNoteCommand dest topic length payload s = answered [0x03] s := by
  rw [takeNoteCommand, inStates_of_mem (by simp [life])]
  split
  · next d tp hd htp =>
    refine if_pos ?_
    rcases h with range | range | range | own
    · rw [smallOf_none range] at hd
      cases hd
    · rw [smallOf_none range] at htp
      cases htp
    · exact .inr range
    · rw [smallOf_of_toNat own] at hd
      exact .inl (Option.some.inj hd).symm
  · rfl

/-- Settles O6. -/
theorem commandsAreRefusedByStatusAlone : Obligations.CommandsAreRefusedByStatusAlone := by
  refine ⟨fun code s unknown collected => ?_, fun c bytes b states s wf sent h taken notIn =>
    exec_badState wf sent h taken notIn, fun s =>
    ⟨?_, ?_, ?_, ?_, ?_, ?_, ?_⟩⟩
  · have wf : (Instr.badCommand code).wellFormed = true := by
      simpa [Instr.wellFormed, namesNoCommand, ← BitVec.toNat_inj] using unknown
    rw [exec_collected (b := code) (bytes := []) wf rfl collected]
    exact congrArg _ (takeBytes_unknown (unknown_of_wellFormed wf) s)
  · intro arg collected life bad
    rw [exec_start_taken collected, takeStart, inStates_of_mem (by simpa using life), startConfigOf_none bad]
    rfl
  · intro lock flags lease collected life bad
    rw [exec_claim_taken collected, takeClaim_badArg life bad]
  · intro lock collected life range
    rw [exec_yield_taken collected, takeYield, inStates_of_mem (by simp [life]), lockOf_none range]
    rfl
  · intro lock target collected life bad
    rw [exec_recall_taken collected, takeRecall_badArg life bad]
  · intro k t lock target collected life hk ht queued waiting
    rw [exec_recall_taken collected, takeRecall_of_args life hk ht, acceptRecall_badArg queued waiting]
  · intro dest topic length payload bytes b wf sent collected life bad
    rw [exec_note_taken wf sent collected, takeNoteCommand_badArg life bad]
  · intro lock collected life range
    rw [exec_lookLock_taken collected, takeLookLock, inStates_of_mem (by simpa using life), lockOf_none range]
    rfl

/-! ### Room for a frame -/

theorem withTicket_noTicket {work : TicketId → State → State} (h : ∀ t : TicketId, s.tickets[t] ≠ none) :
    withTicket work s = answered [0x04] s := by
  rw [withTicket, lowestFreeTicket_none h]
  rfl

theorem lowestFreeTicket_isSome (h : ∃ t : TicketId, s.tickets[t] = none) : ∃ t, lowestFreeTicket s = some t := by
  obtain ⟨t, free⟩ := h
  refine Option.isSome_iff_exists.1 ?_
  rw [lowestFreeTicket, List.find?_isSome]
  exact ⟨t, List.mem_finRange t, by simp [free]⟩

theorem withTicket_queueFull {work : TicketId → State → State} (free : ∃ t : TicketId, s.tickets[t] = none)
    (full : 8 ≤ s.hostQueue.length) : withTicket work s = answered [0x05] s := by
  obtain ⟨t, lowest⟩ := lowestFreeTicket_isSome free
  rw [withTicket, lowest]
  exact if_pos full

theorem queueUnder_eq {t : TicketId} {kind : TicketKind} {f : HostFrame} (notNote : ∀ d tp p u, f ≠ .note d tp p u) :
    queueUnder t kind f s =
      answered [0x00, BitVec.ofNat 8 t.val]
        { s with
          tickets := put s.tickets t (some { kind := kind, place := .queued }), hostQueue := s.hostQueue ++ [f] } := by
  rw [queueUnder, appendHostFrame_of_not_note notNote]
  rfl

theorem claimFlagsOf_bits (m : Mode) (c : ClaimClass) (form : Form) :
    claimFlagsOf (BitVec.ofBool (modeBit m) ++ BitVec.ofBool (classBit c) ++ BitVec.ofBool (formBit form) ++ 0#5) =
      some (m, c, form) := by
  cases m <;> cases c <;> cases form <;> rfl

theorem takeClaim_of_args {lock flags lease : Byte} {k : LockId} {m : Mode} {c : ClaimClass} {form : Form}
    (life : s.life = .member) (hk : lock.toNat = k.val) (hf : claimFlagsOf flags = some (m, c, form)) :
    takeClaim lock flags lease s = acceptClaim k m c form lease s := by
  rw [takeClaim, inStates_of_mem (by simp [life]), lockOf_of_toNat hk, hf]

/-- Settles O7: the checks pass, and the lease decides whether an entry is reserved. -/
theorem claimIsQueuedUnderATicket : Obligations.ClaimIsQueuedUnderATicket := by
  rintro k m c form lock flags lease t s collected life hk rfl lowest room leased
  rw [exec_claim_taken collected, takeClaim_of_args life hk (claimFlagsOf_bits m c form), acceptClaim,
    withTicket_of_room lowest room]
  by_cases unleased : lease = 0
  · rw [if_pos unleased, if_pos unleased, queueUnder_eq (by simp)]
  · have free : ¬Config.leaseTableSize ≤ s.leases.length := Nat.not_le.2 (leased.resolve_left unleased)
    rw [if_neg unleased, if_neg unleased, if_neg free, queueUnder_eq (by simp)]

theorem takeYield_of_args {lock : Byte} {k : LockId} (life : s.life = .member) (hk : lock.toNat = k.val) :
    takeYield lock s = withTicket (fun t s => queueUnder t .yield (.yield k t) (stopLease k s)) s := by
  rw [takeYield, inStates_of_mem (by simp [life]), lockOf_of_toNat hk]

theorem stopEntry_other {k : LockId} {free : Nat} {l : Lease} (h : runningFor k l = false) : stopEntry k free l = l := by
  cases l with
  | running j u => exact if_neg (by simpa [runningFor] using h)
  | _ => rfl

theorem map_stopEntry_other {k : LockId} {free : Nat} {ls : List Lease} (h : ∀ l ∈ ls, runningFor k l = false) :
    ls.map (stopEntry k free) = ls :=
  (List.map_congr_left fun l hl => stopEntry_other (h l hl)).trans (List.map_id ls)

/-- Settles O8. -/
theorem yieldIsQueuedAndStopsTheLease : Obligations.YieldIsQueuedAndStopsTheLease := by
  intro k lock t s collected life hk lowest room
  have taken : exec (.yield lock) s = .next (queueUnder t .yield (.yield k t) (stopLease k s)) := by
    rw [exec_yield_taken collected, takeYield_of_args life hk, withTicket_of_room lowest room]
  refine ⟨fun idle => ?_, fun before after units leases counted others => ?_⟩
  · have same : stopLease k s = s := if_neg (by simpa using idle)
    rw [taken, same, queueUnder_eq (by simp)]
  · have idle : (∀ l ∈ before, runningFor k l = false) ∧ ∀ l ∈ after, runningFor k l = false :=
      ⟨fun l h => others l (List.mem_append_left _ h), fun l h => others l (List.mem_append_right _ h)⟩
    have running : s.leases.any (runningFor k) = true := by simp [leases, runningFor]
    have units_pos : 0 < units.toNat := by
      rw [Nat.pos_iff_ne_zero]
      exact fun zero => counted (BitVec.eq_of_toNat_eq zero)
    have units_lt := units.isLt
    have mod_lt := Nat.mod_lt (Config.unitsLeft s.freeCount) units_pos
    refine ⟨BitVec.ofNat 8 (1 + Config.unitsLeft s.freeCount % units.toNat), s.freeCount + 1, ?_, ?_, ?_⟩
    · rw [BitVec.toNat_ofNat, Nat.mod_eq_of_lt (by omega)]
      omega
    · rw [BitVec.toNat_ofNat, Nat.mod_eq_of_lt (by omega)]
      omega
    · have stopped : stopLease k s =
          { s with
            leases := before ++ .stopped k (BitVec.ofNat 8 (1 + Config.unitsLeft s.freeCount % units.toNat)) :: after,
            freeCount := s.freeCount + 1 } := by
        rw [stopLease, if_pos running, leases, List.map_append, List.map_cons, map_stopEntry_other idle.1,
          map_stopEntry_other idle.2]
        simp [stopEntry]
      rw [taken, stopped, queueUnder_eq (by simp)]

theorem withTicket_of_free {work : TicketId → State → State} (free : ∃ t : TicketId, s.tickets[t] = none)
    (room : s.hostQueue.length < 8) : ∃ t, withTicket work s = work t s := by
  obtain ⟨t, lowest⟩ := lowestFreeTicket_isSome free
  refine ⟨t, ?_⟩
  rw [withTicket, lowest]
  exact if_neg (Nat.not_le.2 room)

theorem acceptRecall_byFrame {k : LockId} {t : TicketId}
    (ticket : s.tickets[t] = some { kind := .claim k, place := .waiting } ∨
      (s.tickets[t] = some { kind := .claim k, place := .queued } ∧ hostInFlight t s = true)) :
    acceptRecall k t s = withTicket (fun u s => queueUnder u .recall (.recall k t u) s) s := by
  unfold acceptRecall
  rcases ticket with waiting | ⟨queued, inFlight⟩
  · rw [waiting]
    exact if_neg (not_not_intro rfl)
  · rw [queued]
    exact (if_neg (not_not_intro rfl)).trans (if_pos inFlight)

theorem takeNoteCommand_of_args {dest topic length : Byte} {payload : List Byte} {d : StationId} {tp : Fin 16}
    (life : s.life = .member) (hd : dest.toNat = d.val) (htp : topic.toNat = tp.val) (other : d ≠ s.straps.id)
    (hlen : length.toNat ≤ 16) :
    takeNoteCommand dest topic length payload s = withTicket (fun t s => queueUnder t .note (.note d tp payload t) s) s := by
  rw [takeNoteCommand, inStates_of_mem (by simp [life]), smallOf_of_toNat hd, smallOf_of_toNat htp]
  refine if_neg ?_
  rintro (own | long)
  · exact other own
  · omega

theorem claimFlagsOf_some {flags : Byte} (h : flags.extractLsb' 0 5 = 0) :
    claimFlagsOf flags = some (modeOf (flags.getLsbD 7), classOf (flags.getLsbD 6), formOf (flags.getLsbD 5)) :=
  if_neg (not_not_intro h)

/-- A command that queues its frame under a free ticket is refused without one, and then for want of room (R162). -/
theorem refused_of_withTicket {c : Instr} {work : TicketId → State → State} (h : exec c s = .next (withTicket work s)) :
    ((∀ t : TicketId, s.tickets[t] ≠ none) → exec c s = .next (answered [0x04] s)) ∧
      ((∃ t : TicketId, s.tickets[t] = none) → 8 ≤ s.hostQueue.length → exec c s = .next (answered [0x05] s)) :=
  ⟨fun noTicket => by rw [h, withTicket_noTicket noTicket], fun free full => by rw [h, withTicket_queueFull free full]⟩

/-- Settles O9. -/
theorem noRoomRefusesTheCommand : Obligations.NoRoomRefusesTheCommand := by
  intro c bytes b s wf sent collected life args
  have taken := exec_collected wf sent collected
  split at args
  · next lock flags lease =>
    rw [← Option.some.inj sent] at taken
    obtain ⟨range, bits⟩ := args
    have accepted : takeClaim lock flags lease s = acceptClaim ⟨lock.toNat, range⟩ _ _ _ lease s :=
      takeClaim_of_args life rfl (claimFlagsOf_some bits)
    have taken : exec (.claim lock flags lease) s = _ := taken.trans (congrArg _ accepted)
    obtain ⟨noTicket, queueFull⟩ := refused_of_withTicket taken
    refine ⟨noTicket, queueFull, fun lock' flags' lease' same leased free room full => ?_⟩
    cases same
    obtain ⟨t, work⟩ := withTicket_of_free free room
    rw [taken, acceptClaim, work, if_neg leased, if_pos full]
    rfl
  · next lock =>
    rw [← Option.some.inj sent] at taken
    have accepted := takeYield_of_args (lock := lock) (k := ⟨lock.toNat, args⟩) life rfl
    obtain ⟨noTicket, queueFull⟩ := refused_of_withTicket (taken.trans (congrArg Host.Outcome.next accepted))
    exact ⟨noTicket, queueFull, nofun⟩
  · next lock target =>
    rw [← Option.some.inj sent] at taken
    obtain ⟨k, t, hk, ht, ticket⟩ := args
    have accepted := (takeRecall_of_args life hk ht).trans (acceptRecall_byFrame ticket)
    obtain ⟨noTicket, queueFull⟩ := refused_of_withTicket (taken.trans (congrArg Host.Outcome.next accepted))
    exact ⟨noTicket, queueFull, nofun⟩
  · next dest topic length payload =>
    rw [← Option.some.inj sent] at taken
    obtain ⟨hdest, other, htopic, hlength⟩ := args
    have accepted := takeNoteCommand_of_args (dest := dest) (topic := topic) (payload := payload)
      (d := ⟨dest.toNat, hdest⟩) (tp := ⟨topic.toNat, htopic⟩) life rfl rfl (fun own => other (congrArg Fin.val own)) hlength
    obtain ⟨noTicket, queueFull⟩ := refused_of_withTicket (taken.trans (congrArg Host.Outcome.next accepted))
    exact ⟨noTicket, queueFull, nofun⟩
  · exact args.elim

end Sys2Proof.Machine
end

section
/-! The settlements of O10 to O14: RECALL and NOTE, the reading of records and notes, and what the port shows. -/

namespace Sys2Proof.Machine

variable {s t : State}

/-! ### RECALL -/

theorem isClaimUnder_other {t : TicketId} {f : HostFrame} (h : hostTicket f ≠ t) : isClaimUnder t f = false := by
  cases f with
  | claim k m c form u => simpa [isClaimUnder, hostTicket] using h
  | _ => rfl

theorem isClaimUnder_claim (k : LockId) (m : Mode) (c : ClaimClass) (form : Form) (t : TicketId) :
    isClaimUnder t (.claim k m c form t) = true := by simp [isClaimUnder]

/-- The claim's frame is the first under its ticket, and stands at the head when nothing stands before it. -/
theorem eraseP_claim {before after : List HostFrame} {k : LockId} {m : Mode} {c : ClaimClass} {form : Form} {t : TicketId}
    (others : ∀ f ∈ before, hostTicket f ≠ t) :
    (before ++ .claim k m c form t :: after).eraseP (isClaimUnder t) = before ++ after := by
  rw [List.eraseP_append_right _ fun f hf => by simp [isClaimUnder_other (others f hf)],
    List.eraseP_cons_of_pos (isClaimUnder_claim k m c form t)]

theorem head_isClaimUnder {before after : List HostFrame} {k : LockId} {m : Mode} {c : ClaimClass} {form : Form}
    {t : TicketId} (others : ∀ f ∈ before, hostTicket f ≠ t) :
    ((before ++ .claim k m c form t :: after).head?.map (isClaimUnder t)).getD false = decide (before = []) := by
  cases before with
  | nil => simp [isClaimUnder_claim]
  | cons f rest => simp [isClaimUnder_other (others f List.mem_cons_self)]

/-- A QUEUED CLAIM that is not in flight is removed locally (R169). -/
theorem acceptRecall_local {k : LockId} {t : TicketId} (ticket : s.tickets[t] = some { kind := .claim k, place := .queued })
    (notInFlight : hostInFlight t s = false) : acceptRecall k t s = answered [0x08] (removeLocally t k s) := by
  unfold acceptRecall
  rw [ticket]
  exact (if_neg (not_not_intro rfl)).trans (if_neg (Bool.not_eq_true _ ▸ notInFlight))

/-- What a local removal leaves, before a new head is looked up (R141, R150, R169). -/
theorem removeLocally_eq {before after : List HostFrame} {k : LockId} {m : Mode} {c : ClaimClass} {form : Form}
    {t : TicketId} (ticket : s.tickets[t] = some { kind := .claim k, place := .queued })
    (queue : s.hostQueue = before ++ .claim k m c form t :: after) (others : ∀ f ∈ before, hostTicket f ≠ t) :
    let removed : State :=
      { s with
        tickets := put s.tickets t (some { kind := .claim k, place := .recorded }),
        hostQueue := before ++ after,
        hostRetry := if before = [] then .zero else s.hostRetry,
        leases := s.leases.filter fun l => !reservedUnder t l,
        records := s.records ++ [.recalled t k],
        round := { s.round with chosen := s.round.chosen.filter fun o => o.source != .host t } }
    removeLocally t k s = if before = [] then lookupHead removed else removed := by
  have recorded (u : State) (used : u.tickets[t] = some { kind := .claim k, place := .queued }) :
      makeRecord (.recalled t k) u =
        { u with
          tickets := put u.tickets t (some { kind := .claim k, place := .recorded }),
          records := u.records ++ [.recalled t k] } := makeRecord_ticketed rfl used
  unfold removeLocally
  rw [queue, eraseP_claim others, head_isClaimUnder others]
  dsimp only
  rw [recorded]
  · simp only [decide_eq_true_eq]
    rfl
  · exact ticket

/-- Settles O10. -/
theorem recallRemovesOrIsQueued : Obligations.RecallRemovesOrIsQueued := by
  constructor
  · intro k lock target t m c form before after s collected life hk ht ticket queue others notInFlight
    rw [exec_recall_taken collected, takeRecall_of_args life hk ht, acceptRecall_local ticket notInFlight,
      removeLocally_eq ticket queue others]
    rfl
  · intro k lock target t u s collected life hk ht ticket lowest room
    rw [exec_recall_taken collected, takeRecall_of_args life hk ht, acceptRecall_byFrame ticket,
      withTicket_of_room lowest room, queueUnder_eq (by simp)]

/-! ### NOTE -/

theorem put_put {α : Type} {n : Nat} (v : Vector α n) (i : Fin n) (a b : α) : put (put v i a) i b = put v i b := by
  simp [put]

/-- The look up of a NOTE at the head whose destination is FULL changes nothing (R150). -/
theorem lookupHead_full {d : StationId} {tp : Fin 16} {p : List Byte} {k : TicketId} {rest : List HostFrame}
    (queue : s.hostQueue = .note d tp p k :: rest) (good : s.ecc.roster = .good) (full : s.replica.roster[d] = .full) :
    lookupHead s = s := by
  have words : AllGood [.roster] s.ecc := by simpa [AllGood, conditionOf] using good
  rw [lookupHead, queue, lookupHeads, if_pos (readable_allGood words), afterReads_allGood words]
  exact if_pos full

/-- A NOTE at the head whose destination is not FULL is dropped with GONE, and the next head is looked up (R150). -/
theorem lookupHead_gone {d : StationId} {tp : Fin 16} {p : List Byte} {k : TicketId} {rest : List HostFrame}
    (queue : s.hostQueue = .note d tp p k :: rest) (good : s.ecc.roster = .good) (gone : s.replica.roster[d] ≠ .full) :
    lookupHead s = lookupHeads rest (makeRecord (.undelivered k d .gone) (popHead s)) := by
  have words : AllGood [.roster] s.ecc := by simpa [AllGood, conditionOf] using good
  rw [lookupHead, queue, lookupHeads, if_pos (readable_allGood words), afterReads_allGood words]
  exact if_neg gone

/-- A NOTE appended behind another frame, or to a FULL destination, stays in the queue (R150). -/
theorem appendHostFrame_note_kept {d : StationId} {tp : Fin 16} {p : List Byte} {k : TicketId}
    (stays : s.hostQueue ≠ [] ∨ (s.ecc.roster = .good ∧ s.replica.roster[d] = .full)) :
    appendHostFrame (.note d tp p k) s = { s with hostQueue := s.hostQueue ++ [.note d tp p k] } := by
  by_cases empty : s.hostQueue = []
  · obtain ⟨good, full⟩ := stays.resolve_left (not_not_intro empty)
    have queue : s.hostQueue ++ [.note d tp p k] = .note d tp p k :: [] := by rw [empty, List.nil_append]
    rw [appendHostFrame, if_pos (by simp [empty])]
    exact lookupHead_full queue good full
  · exact if_neg (by simpa using empty)

/-- A NOTE appended to an empty queue whose destination is not FULL is gone at once (R150). -/
theorem appendHostFrame_note_gone {d : StationId} {tp : Fin 16} {p : List Byte} {t : TicketId} {k : Ticket}
    (empty : s.hostQueue = []) (good : s.ecc.roster = .good) (gone : s.replica.roster[d] ≠ .full)
    (used : s.tickets[t] = some k) :
    appendHostFrame (.note d tp p t) s =
      { s with
        tickets := put s.tickets t (some { k with place := .recorded }), hostRetry := .zero, busyWait := none,
        records := s.records ++ [.undelivered t d .gone] } := by
  have queue : s.hostQueue ++ [.note d tp p t] = .note d tp p t :: [] := by rw [empty, List.nil_append]
  have dropped := lookupHead_gone (s := { s with hostQueue := s.hostQueue ++ [.note d tp p t] }) queue good gone
  rw [makeRecord_ticketed rfl (by exact used)] at dropped
  rw [appendHostFrame, if_pos (by simp [empty]), dropped]
  simp [lookupHeads, popHead, empty]

/-- Settles O11. -/
theorem noteIsQueuedOrGone : Obligations.NoteIsQueuedOrGone := by
  intro dest topic length payload bytes b d tp t s wf hlen sent collected life hd htp other lowest room
  have taken : exec (.note dest topic length payload) s = .next (queueUnder t .note (.note d tp payload t) s) := by
    rw [exec_note_taken wf sent collected, takeNoteCommand_of_args life hd htp other hlen, withTicket_of_room lowest room]
  rw [taken, queueUnder]
  refine ⟨fun stays => ?_, fun empty good gone => ?_⟩
  · rw [appendHostFrame_note_kept (by exact stays)]
    rfl
  · rw [appendHostFrame_note_gone (by exact empty) (by exact good) (by exact gone) (getElem_put_same _ _ _), put_put]
    rfl

/-! ### NEXT and TAKE_NOTE -/

theorem freeForRecord_ticketed {r : Record} {t : TicketId} (h : ticketOfRecord r = some t) :
    freeForRecord r s = freeTicket t s := by
  cases r with
  | leaseExpired k => cases h
  | _ => cases h <;> rfl

theorem exec_next_of_record {r : Record} {rest : List Record} (collected : Collected [] s) (records : s.records = r :: rest) :
    exec .next s = .next (answered (0x00 :: recordBytes r) (freeForRecord r { s with records := rest })) := by
  rw [exec_next_taken collected, takeNext, records]
  rfl

/-- Settles O12. -/
theorem nextAndTakeNoteTakeTheOldest : Obligations.NextAndTakeNoteTakeTheOldest := by
  refine ⟨fun s collected => ⟨fun empty => ?_, fun r rest records => ?_⟩,
    fun s collected => ⟨fun empty => ?_, fun n rest inbound => ?_⟩⟩
  · rw [exec_next_taken collected, takeNext, empty]
    rfl
  · have taken := exec_next_of_record collected records
    refine ⟨fun t ticketed => ?_, ?_, ?_, ?_, ?_⟩
    · rw [taken, freeForRecord_ticketed ticketed]
      rfl
    · rintro k before after rfl leases first
      rw [taken, freeForRecord, leases, List.erase_append_right _ first, List.erase_cons_head]
      rfl
    · rintro rfl
      exact taken
    · rintro rfl
      exact taken
    · rintro c rfl
      exact taken
  · rw [exec_takeNote_taken collected, takeInbound, empty]
    rfl
  · rw [exec_takeNote_taken collected, takeInbound, inbound]
    rfl

/-! ### STATUS and the looks -/

theorem presentByte_some (i : Fin 16) : presentByte (some i) = BitVec.ofNat 8 (128 + i.val) := by
  revert i
  decide

theorem tagBytes_eq (o : Option GroupTag) :
    tagBytes o = match o with
      | some g => [BitVec.ofNat 8 (128 + g.founder.val), g.count]
      | none => [0x00, 0x00] := by
  cases o with
  | none => rfl
  | some g => rw [tagBytes, presentByte_some]

theorem statusFlags_bits (a b c : Bool) :
    ((0#5 ++ BitVec.ofBool a ++ BitVec.ofBool b ++ BitVec.ofBool c : Byte)).toNat < 8 ∧
      ((0#5 ++ BitVec.ofBool a ++ BitVec.ofBool b ++ BitVec.ofBool c : Byte)).getLsbD 0 = c ∧
      ((0#5 ++ BitVec.ofBool a ++ BitVec.ofBool b ++ BitVec.ofBool c : Byte)).getLsbD 1 = b ∧
      ((0#5 ++ BitVec.ofBool a ++ BitVec.ofBool b ++ BitVec.ofBool c : Byte)).getLsbD 2 = a := by
  revert a b c
  decide

/-- Settles O13. -/
theorem statusShowsTheStation : Obligations.StatusShowsTheStation := by
  intro s collected
  obtain ⟨small, pointer, fault, halted⟩ := statusFlags_bits (frozen s) s.fault.isSome s.round.pointer.isSome
  refine ⟨statusFlags s, small, pointer, fault, halted, ?_⟩
  rw [exec_status_taken collected, takeStatus, statusBytes, tagBytes_eq]
  cases s.replica.tag <;> rfl

theorem frozenByte_eq (s : State) : frozenByte s = if s.life = .halted then 0x01 else 0x00 := by
  unfold frozenByte frozen
  cases s.life <;> rfl

theorem look_allGood {words : List StoreWord} {bytes : State → List Byte} (good : AllGood words s.ecc) :
    look words bytes s = answered (0x00 :: bytes s) s := by
  rw [look, afterReads_allGood good, readable_allGood good]
  rfl

theorem takeLookLock_of_args {lock : Byte} {k : LockId} (life : s.life = .member ∨ s.life = .halted)
    (hk : lock.toNat = k.val) :
    takeLookLock lock s = look [.lock k, .queue k] (fun s => lockBytes s s.replica.locks[k]) s := by
  rw [takeLookLock, inStates_of_mem (by simpa using life), lockOf_of_toNat hk]

theorem takeLookRoster_of_life (life : s.life = .member ∨ s.life = .halted) :
    takeLookRoster s = look [.roster, .join] rosterLookBytes s := by
  rw [takeLookRoster, inStates_of_mem (by simpa using life)]

theorem entryByte_eq (e : ClaimEntry) :
    entryByte e = (BitVec.ofFin e.station : BitVec 4) ++ BitVec.ofBool (e.mode == .shared) ++
      BitVec.ofBool (e.cls == .high) ++ 0#2 := by
  unfold entryByte
  cases e.mode <;> cases e.cls <;> rfl

/-- Settles O14. -/
theorem looksShowTheReplica : Obligations.LooksShowTheReplica := by
  intro s life
  refine ⟨fun k lock collected hk good => ?_, fun collected good => ?_⟩
  · rw [exec_lookLock_taken collected, takeLookLock_of_args life hk, look_allGood good, lockBytes, frozenByte_eq,
      List.map_congr_left fun e _ => entryByte_eq e]
    rfl
  · rw [exec_lookRoster_taken collected, takeLookRoster_of_life life, look_allGood good, rosterLookBytes, frozenByte_eq,
      tagBytes_eq]
    cases s.replica.join with
    | none => cases s.replica.tag <;> cases s.replica.interval <;> rfl
    | some j =>
      dsimp only
      rw [presentByte_some]
      cases s.replica.tag <;> cases s.replica.interval <;> rfl

end Sys2Proof.Machine
end

section
/-! The settlements of O17 and O19 to O28 but O24: entry to LISTENING, resets, and a round up to its verdict mark. -/

namespace Sys2Proof.Machine

variable {s t : State} {slots : VerdictSlots}

/-! ### START, RESTART and the resets -/

theorem startConfigOf_bits (i : Interval) (rejoin stopping : Bool) :
    startConfigOf (BitVec.ofBool stopping ++ BitVec.ofBool rejoin ++ 0#3 ++ (intervalCode i).extractLsb' 0 3) =
      some { interval := i, autoRejoin := rejoin, stopOnFault := stopping } := by
  cases i <;> cases rejoin <;> cases stopping <;> rfl

/-- Settles O17. -/
theorem startEntersListening : Obligations.StartEntersListening := by
  rintro arg i rejoin stopping s collected life rfl
  rw [exec_start_taken collected, takeStart, inStates_of_mem (by simpa using life), startConfigOf_bits]
  exact ⟨(enterListening false (configure { interval := i, autoRejoin := rejoin, stopOnFault := stopping } s)).round,
    rfl, rfl, rfl, rfl, rfl, rfl, rfl, rfl, rfl⟩

/-- Where no STOP is pending the sources are cleared whole, and with them the choice (R74). -/
theorem dropOffers_chosen (none : s.pendingStop = none) : (dropOffers s).round.chosen = .none := by
  have stays (o : Offer) : staysOffered s o = false := by simp [staysOffered, none]
  simp [dropOffers, stays]

/-- Settles O19. -/
theorem restartEntersListening : Obligations.RestartEntersListening := by
  intro s collected life
  rw [exec_restart_taken collected, takeRestart, inStates_of_mem (by simp [life])]
  exact ⟨(enterListening false (clearForRestart s)).round, rfl, rfl, rfl, rfl, rfl, rfl, rfl, dropOffers_chosen rfl⟩

/-- Settles O20. -/
theorem resetsGiveTheResetState : Obligations.ResetsGiveTheResetState := by
  refine ⟨fun s => ⟨fun pins => ⟨s.freeCount, rfl⟩, fun collected => ⟨s.freeCount, ?_⟩⟩, ?_⟩
  · rw [exec_softReset_taken collected]
    rfl
  · have roster (x : StationId) : State.reset.replica.roster[x] = .absent := by simp [State.reset, Replica.cleared]
    have lock (k : LockId) : State.reset.replica.locks[k] = .founding := by simp [State.reset, Replica.cleared]
    have ticket (t : TicketId) : State.reset.tickets[t] = none := by simp [State.reset]
    have silence (x : StationId) : State.reset.monitor.silence[x] = .none := by
      simp [State.reset, RosterMonitor.stopped]
    have evict (x : StationId) : has State.reset.monitor.pendingEvict x = false := has_noIds x
    have holders (x : StationId) : has LockRecord.founding.holders x = false := has_noIds x
    refine ⟨rfl, rfl, rfl, rfl, rfl, rfl, rfl, rfl, rfl, rfl, rfl, rfl, rfl, rfl, rfl, roster, fun k => ?_, ticket, rfl,
      rfl, rfl, rfl, rfl, rfl, rfl, rfl, rfl, has_noLocks, fun x => ⟨silence x, evict x⟩, rfl, rfl, rfl, rfl, rfl, rfl, rfl⟩
    rw [lock]
    exact ⟨rfl, rfl, rfl, holders⟩

/-! ### Starts and the selector -/

theorem startRound_of_idle {known : Bool} (idle : s.round.phase = .idle) (offer : selectOffer s ≠ none)
    (pointer : s.round.pointer.isSome = known) :
    startRound known s = { s with round := { s.round with phase := .started } } :=
  if_pos ⟨idle, Option.isSome_iff_ne_none.2 offer, pointer⟩

theorem startRound_without_offer {known : Bool} (none : selectOffer s = none) : startRound known s = s :=
  if_neg fun h => by simp [none] at h

theorem startRound_wrong_start {known : Bool} (pointer : s.round.pointer.isSome ≠ known) : startRound known s = s :=
  if_neg fun h => pointer h.2.2

/-- Settles O21. -/
theorem onlyAnOfferedFrameStartsARound : Obligations.OnlyAnOfferedFrameStartsARound := by
  intro s
  refine ⟨fun idle offer => ⟨fun known => ?_, fun unknown => ?_⟩, fun none => ⟨?_, ?_⟩, fun unknown => ?_, fun known => ?_⟩
  · exact congrArg Host.Outcome.next (startRound_of_idle idle offer (Option.isSome_iff_ne_none.2 known))
  · exact congrArg Host.Outcome.next (startRound_of_idle idle offer (by simp [unknown]))
  · exact congrArg Host.Outcome.next (startRound_without_offer none)
  · exact congrArg Host.Outcome.next (startRound_without_offer none)
  · exact congrArg Host.Outcome.next (startRound_wrong_start (by simp [unknown]))
  · exact congrArg Host.Outcome.next (startRound_wrong_start (by simpa [Option.isSome_iff_ne_none] using known))

theorem lowest_eq {n : Nat} {v : Vector Bool n} {x : Fin n} (mem : has v x = true)
    (below : ∀ y : Fin n, y < x → has v y = false) : lowest v = some x := by
  unfold lowest
  rw [List.find?_eq_some_iff_getElem]
  refine ⟨mem, x.val, by simp, by simp, fun j hj => ?_⟩
  simpa using below ⟨j, by omega⟩ hj

theorem lowest_none {n : Nat} {v : Vector Bool n} (empty : ∀ x : Fin n, has v x = false) : lowest v = none := by
  unfold lowest
  rw [List.find?_eq_none]
  exact fun x _ => by simp [empty x]

theorem selectOffer_member (life : s.life = .member) :
    selectOffer s = (stopOffer s).or ((leaveOffer s).or ((evictOffer s).or ((expireOffer s).or ((entryOffer s).or
      ((declineOffer s).or ((copyOffer s).or ((hostOffer s).or (beaconOffer s)))))))) := by
  rw [selectOffer, life]

theorem stopOffer_none (none : s.pendingStop = none) : stopOffer s = .none := by rw [stopOffer, none]; rfl

theorem leaveOffer_none (none : s.pendingLeave = none) : leaveOffer s = .none := by rw [leaveOffer, none]; rfl

theorem evictOffer_none (none : ∀ x : StationId, has s.monitor.pendingEvict x = false) : evictOffer s = .none := by
  rw [evictOffer, lowest_none none]; rfl

theorem expireOffer_none (none : ∀ k : LockId, has s.expireSet k = false) : expireOffer s = .none := by
  rw [expireOffer, lowest_none none]; rfl

theorem entryOffer_none (none : s.join.entryPending = false) : entryOffer s = .none := by
  simp [entryOffer, none]

theorem declineOffer_none (none : s.declines = []) : declineOffer s = .none := by rw [declineOffer, none]; rfl

theorem copyOffer_none (none : ∀ c, s.copy = some c → c.frames = []) : copyOffer s = .none := by
  unfold copyOffer
  cases copy : s.copy with
  | none => rfl
  | some c => simp [none c copy]

theorem hostOffer_none (none : s.hostQueue = [] ∨ s.busyWait ≠ none) : hostOffer s = .none := by
  unfold hostOffer
  split
  · rfl
  · next ready =>
    rw [none.resolve_right (not_not_intro (by simpa using ready))]
    rfl

theorem leaveOffer_some (some : s.pendingLeave ≠ none) : leaveOffer s = .some { source := .leave, body := .leave } := by
  obtain ⟨src, pending⟩ := Option.ne_none_iff_exists'.1 some
  rw [leaveOffer, pending]
  rfl

/-- Settles O22: each source is present or absent, and absent sources are passed over. -/
theorem selectorFollowsItsOrder : Obligations.SelectorFollowsItsOrder := by
  intro s
  refine ⟨fun life => ?_, fun life => ?_, fun life => ?_, fun life => ?_, fun life => ?_⟩
  · rw [selectOffer_member life]
    refine ⟨fun r stop => ?_, fun noStop => ?_⟩
    · rw [stopOffer, stop]
      rfl
    rw [stopOffer_none noStop, Option.none_or]
    refine ⟨fun leave => ?_, fun noLeave => ?_⟩
    · rw [leaveOffer_some leave]
      rfl
    rw [leaveOffer_none noLeave, Option.none_or]
    refine ⟨fun x mem below => ?_, fun noEvict => ?_⟩
    · rw [evictOffer, lowest_eq mem below]
      rfl
    rw [evictOffer_none noEvict, Option.none_or]
    refine ⟨fun k mem below => ?_, fun noExpire => ?_⟩
    · rw [expireOffer, lowest_eq mem below]
      rfl
    rw [expireOffer_none noExpire, Option.none_or]
    refine ⟨fun entry => ?_, fun noEntry => ?_⟩
    · rw [entryOffer, if_pos entry]
      rfl
    rw [entryOffer_none noEntry, Option.none_or]
    refine ⟨fun d rest declines => ?_, fun noDecline => ?_⟩
    · rw [declineOffer, declines]
      rfl
    rw [declineOffer_none noDecline, Option.none_or]
    refine ⟨fun c f rest copy frames => ?_, fun noCopy => ?_⟩
    · rw [copyOffer, copy, Option.bind_some, frames]
      rfl
    rw [copyOffer_none noCopy, Option.none_or]
    refine ⟨fun f rest queue ready => ?_, fun noHost => ?_⟩
    · rw [hostOffer, ready, queue]
      rfl
    · rw [hostOffer_none noHost, Option.none_or]
      rfl
  · have joiner : selectOffer s = (stopOffer s).or ((leaveOffer s).or (entryOffer s)) := by
      rcases life with life | life <;> rw [selectOffer, life]
    rw [joiner]
    cases stop : s.pendingStop with
    | some r =>
      rw [stopOffer, stop]
      rfl
    | none =>
      rw [stopOffer_none stop, Option.none_or]
      by_cases leave : s.pendingLeave = none
      · rw [leaveOffer_none leave, Option.none_or]
        exact (if_neg (not_not_intro leave)).symm
      · rw [leaveOffer_some leave]
        exact (if_pos leave).symm
  · rcases life with life | life <;> rw [selectOffer, life] <;> rfl
  · rw [selectOffer, life]
    dsimp only
    split
    · next stop =>
      rw [stopOffer, stop]
      rfl
    · rfl
  · rw [selectOffer, life]

/-! ### The request window -/

theorem afterShadowReads_allGood {words : List StoreWord} (good : ∀ c, s.copy = some c → AllGood words c.ecc) :
    afterShadowReads words s = s := by
  unfold afterShadowReads
  split
  · next c copy =>
    rw [readWords_allGood (good c copy), countCorrected_zero, ← copy]
  · rfl

theorem shadowReadable_allGood {words : List StoreWord} (good : ∀ c, s.copy = some c → AllGood words c.ecc) :
    shadowReadable words s = true := by
  unfold shadowReadable
  split
  · next c copy => rw [readWords_allGood (good c copy)]
  · rfl

/-- The words a chosen copy frame is built from are those of the cursor's first frame (R181). -/
theorem buildReads_allGood (good : ∀ c f rest, s.copy = some c → c.frames = f :: rest → AllGood (copyReads f) c.ecc) :
    ∀ c, s.copy = some c → AllGood (buildReads s) c.ecc := by
  intro c copy
  unfold buildReads
  rw [copy]
  split
  · next c' _ same =>
    cases same
    split
    · split
      · next f rest frames => exact good c f rest copy frames
      · exact nofun
    · exact nofun
  · exact nofun

theorem markFor_eq (o : Offer) :
    markFor o = match o.body with
      | .stop _ | .leave | .evict _ | .expire _ | .yield _ _ | .recall _ _ _ => .expedited
      | _ => .ordinary := by
  unfold markFor
  cases o.body <;> rfl

/-- Settles O23. -/
theorem requestWindowOpensWithTheChoice : Obligations.RequestWindowOpensWithTheChoice := by
  intro s life phase good
  have may : mayOpen s = true := by rcases phase with phase | phase | phase <;> simp [mayOpen, life, phase]
  have words := buildReads_allGood (s := placeRequest s) good
  have opened : openRequestWindow s = placeRequest s := by
    rw [openRequestWindow, if_pos may, buildChosen]
    dsimp only
    rw [shadowReadable_allGood words, afterShadowReads_allGood words]
    rfl
  refine congrArg Host.Outcome.next (opened.trans ?_)
  unfold placeRequest
  simp only [funext markFor_eq]
  cases s.round.pointer <;> rfl

theorem frameFor_member {o : Offer} {g : GroupTag} (life : s.life = .member) (tag : s.replica.tag = some g) :
    (frameFor o s).tag = g ∧ (frameFor o s).sequence = s.replica.sequence := by
  simp [frameFor, headerTag, headerSequence, life, tag]

theorem frameFor_joiner {o : Offer} {g : GroupTag} (life : s.life = .entering ∨ s.life = .copying)
    (target : s.join.target = some g) :
    (frameFor o s).tag = g ∧ (frameFor o s).sequence = if isEntry o.body then 0 else s.join.tracked.getD 0 := by
  constructor
  · rcases life with life | life <;> simp [frameFor, headerTag, life, target]
  · have sequence : (frameFor o s).sequence = headerSequence o.body s := rfl
    rw [sequence]
    rcases life with life | life <;> cases body : o.body <;> simp [headerSequence, life, isEntry]

theorem frameFor_outside {o : Offer} (life : s.life = .listening ∨ s.life = .excluded ∨ s.life = .halted) :
    (frameFor o s).tag = { founder := s.straps.id, count := s.foundingCount } ∧ (frameFor o s).sequence = 0 := by
  rcases life with life | life | life <;> simp [frameFor, headerTag, headerSequence, life, self]

theorem transmission_none (none : ∀ o, s.round.chosen = some o → stillOffered o s = false) : transmission s = .none := by
  unfold transmission
  split
  · next o chosen => exact if_neg (by simp [none o chosen])
  · rfl

/-- Settles O25. -/
theorem requestWindowClosesWithOrWithoutAWinner : Obligations.RequestWindowClosesWithOrWithoutAWinner := by
  refine ⟨fun slots s request marked => ⟨fun p o pointer won chosen offered => ?_, fun p pointer won gone => ?_,
    exec_requestWindowClose_lost request marked⟩, fun s request => congrArg Host.Outcome.next (if_pos request)⟩
  · exact ⟨frameFor o s, rfl, rfl, fun g life tag => frameFor_member life tag, fun g life target => frameFor_joiner life target,
      frameFor_outside, exec_requestWindowClose_won request marked pointer won chosen offered⟩
  · rw [exec_requestWindowClose request marked, wins_iff.2 ⟨p, pointer, won⟩, if_pos rfl, transmission_none gone]

/-! ### The frame part -/

theorem exec_frameReceived {line : List Byte} (phase : s.round.phase = .frame) :
    exec (.frameReceived line) s =
      .next { s with round := { s.round with
        phase := .verdict, reception := some (receptionOf line s), mismatches := mismatchesAfter line s } } :=
  congrArg Host.Outcome.next (if_pos phase)

theorem carried_eq (line : List Byte) : (!line.isEmpty) = (line != []) := by cases line <;> rfl

theorem carried_of_frame {line : List Byte} {f : Frame} (frame : frameOf line = some f) : (line != []) = true := by
  cases line with
  | nil => cases frame
  | cons b rest => rfl

theorem exec_frameReceived_observer {line : List Byte} {r : Reception} (phase : s.round.phase = .frame)
    (flight : s.round.inFlight = none) (reception : receptionOf line s = r) :
    exec (.frameReceived line) s = .next { s with round := { s.round with phase := .verdict, reception := some r } } := by
  have mismatches : mismatchesAfter line s = s.round.mismatches := by simp [mismatchesAfter, flight]
  rw [exec_frameReceived phase, reception, mismatches]

/-- What an observer finds in a frame part without a well-formed frame (R35, R66). -/
theorem receptionOf_unread {line : List Byte} (flight : s.round.inFlight = none) (none : frameOf line = none)
    (life : s.life ≠ .off) :
    receptionOf line s =
      if s.life = .halted ∨ s.round.suppressed = true then
        { unreceived (line != []) with vetoLine2 := false, halted := s.life == .halted, mark := .none }
      else unreceived (line != []) := by
  have mark : verdictMark .none false false false s =
      if s.life = .halted ∨ s.round.suppressed = true then .none else some .veto := by
    by_cases halted : s.life = .halted
    · simp [verdictMark, halted]
    · simp [verdictMark, life, halted]
  have notHalted (h : ¬(s.life = .halted ∨ s.round.suppressed = true)) : (s.life == .halted) = false := by
    simpa using fun halted => h (.inl halted)
  simp only [receptionOf, readbackFails, bearsOwnId, flight, none, carried_eq, Option.isSome_none, Bool.not_false,
    Bool.and_false, Bool.false_and, mark]
  split
  · rfl
  · next h =>
    have free : s.round.suppressed = false := by simpa using fun suppressed => h (.inr suppressed)
    rw [notHalted h, free]
    rfl

/-- What a station in HALTED finds in a well-formed frame (R54, R179). -/
theorem receptionOf_halted {line : List Byte} {f : Frame} (flight : s.round.inFlight = none)
    (frame : frameOf line = some f) (life : s.life = .halted) : receptionOf line s = receivedIn true f none := by
  have carried := carried_of_frame frame
  simp [receptionOf, readbackFails, flight, frame, carried_eq, carried, verdictMark, life, receivedIn]

/-- What an observer finds in a frame with its own ID (R64). -/
theorem receptionOf_ownId {line : List Byte} {f : Frame} (flight : s.round.inFlight = none)
    (frame : frameOf line = some f) (off : s.life ≠ .off) (life : s.life ≠ .halted) (own : f.sender = s.straps.id) :
    receptionOf line s = { received f (some .veto) with duplicate := true } := by
  have carried := carried_of_frame frame
  simp [receptionOf, readbackFails, bearsOwnId, flight, frame, carried_eq, carried, verdictMark, off, life, own, self,
    receivedIn]

/-- What an observer finds in another station's frame: lines 4 to 7 of R35 decide the mark. -/
theorem receptionOf_other {line : List Byte} {f : Frame} (flight : s.round.inFlight = none)
    (frame : frameOf line = some f) (off : s.life ≠ .off) (life : s.life ≠ .halted) (other : f.sender ≠ s.straps.id) :
    receptionOf line s = received f (markReceived f s) := by
  have carried := carried_of_frame frame
  simp [receptionOf, readbackFails, bearsOwnId, flight, frame, carried_eq, carried, verdictMark, off, life, other, self,
    receivedIn]

/-! ### The mark of an observer -/

theorem standing_inStep {field count : Half} (h : field = count) : standing field count = .inStep := by
  simp [standing, h]

theorem standing_ahead {field count : Half} (low : 1 ≤ (field - count).toNat) (high : (field - count).toNat ≤ 32767) :
    standing field count = .ahead := by
  rw [standing, if_neg (by omega), if_pos (by omega)]

theorem standing_behind {field count : Half} (h : 32768 ≤ (field - count).toNat) : standing field count = .behind := by
  rw [standing, if_neg (by omega), if_neg (by omega)]

/-- The station compares the frame's sequence with its count (R43). -/
abbrev Compared (f : Frame) (s : State) : Prop :=
  s.life = .member ∧ (!foreign f s) = true ∧ comparedKind f.body = true

theorem compared_of {f : Frame} (life : s.life = .member) (tag : s.replica.tag = some f.tag)
    (kind : comparedKind f.body = true) : Compared f s :=
  ⟨life, by rw [not_foreign_of_own_tag life tag]; rfl, kind⟩

theorem markReceived_behind {f : Frame} (compared : Compared f s)
    (behind : standing f.sequence s.replica.sequence = .behind) : markReceived f s = some .stale :=
  if_pos ⟨compared, behind⟩

theorem markReceived_ahead {f : Frame} (compared : Compared f s)
    (ahead : standing f.sequence s.replica.sequence = .ahead) : markReceived f s = none := by
  have notBehind : ¬(Compared f s ∧ standing f.sequence s.replica.sequence = .behind) := by simp [ahead]
  exact (if_neg notBehind).trans (if_pos ⟨compared, ahead⟩)

/-- Lines 6 and 7 of R35, where the sequence decides nothing. -/
theorem markReceived_rest {f : Frame} (h : Compared f s → f.sequence = s.replica.sequence) :
    markReceived f s = match f.body with
      | .note dest _ _ => if dest = self s ∧ !foreign f s then some (noteMark s) else none
      | _ => none := by
  have notBehind : ¬(Compared f s ∧ standing f.sequence s.replica.sequence = .behind) := fun ⟨compared, behind⟩ => by
    simp [standing_inStep (h compared)] at behind
  have notAhead : ¬(Compared f s ∧ standing f.sequence s.replica.sequence = .ahead) := fun ⟨compared, ahead⟩ => by
    simp [standing_inStep (h compared)] at ahead
  exact (if_neg notBehind).trans (if_neg notAhead)

theorem markReceived_note {f : Frame} {topic : Fin 16} {payload : List Byte}
    (body : f.body = .note s.straps.id topic payload) (h : Compared f s → f.sequence = s.replica.sequence) :
    markReceived f s = if foreign f s then none else some (noteMark s) := by
  rw [markReceived_rest h, body]
  cases foreign f s <;> simp [self]

/-- Settles O26. -/
theorem observerMarksTheFrame : Obligations.ObserverMarksTheFrame := by
  intro line s phase flight off marked
  have marks {r : Reception} (reception : receptionOf line s = r) : marked r :=
    exec_frameReceived_observer phase flight reception
  refine ⟨fun none life free => marks ?_, fun none h => marks ?_, fun f frame => ⟨fun life => marks ?_,
    fun life own => marks ?_, fun life other => ?_⟩⟩
  · rw [receptionOf_unread flight none off, if_neg (by simp [life, free])]
  · rw [receptionOf_unread flight none off, if_pos h]
  · exact receptionOf_halted flight frame life
  · exact receptionOf_ownId flight frame off life own
  have mark {m : Option VerdictMark} (h : markReceived f s = m) : marked (received f m) :=
    marks (h ▸ receptionOf_other flight frame off life other)
  refine ⟨fun life tag kind behind => mark ?_, fun life tag kind low high => mark ?_, fun topic payload body => ?_,
    fun notMine h => mark ?_⟩
  · exact markReceived_behind (compared_of life tag kind) (standing_behind behind)
  · exact markReceived_ahead (compared_of life tag kind) (standing_ahead low high)
  · refine ⟨fun life tag inStep => mark ?_, fun life tag => mark ?_, fun life => mark ?_, fun life => mark ?_⟩
    · rw [markReceived_note body fun _ => inStep, not_foreign_of_own_tag life tag]
      simp only [noteMark, life, true_and, Bool.false_eq_true, if_false]
    · have foreign : foreign f s = true := by simpa [foreign_eq_of_member life] using tag
      have uncompared : Compared f s → f.sequence = s.replica.sequence := fun ⟨_, own, _⟩ => by simp [foreign] at own
      exact (markReceived_note body uncompared).trans (if_pos foreign)
    · have notMember : s.life ≠ .member := by rcases life with life | life <;> simp [life]
      rw [markReceived_note body fun ⟨member, _⟩ => absurd member notMember, foreign_eq_of_joiner life]
      by_cases target : s.join.target = some f.tag <;> simp [target, noteMark, notMember]
    · have notMember : s.life ≠ .member := by rcases life with life | life <;> simp [life]
      have native : foreign f s = false := by rcases life with life | life <;> simp [foreign, life]
      rw [markReceived_note body fun ⟨member, _⟩ => absurd member notMember, native]
      simp [noteMark, notMember]
  · rw [markReceived_rest]
    · split
      · next dest topic payload body => exact if_neg fun mine => notMine dest topic payload body mine.1
      · rfl
    · rintro ⟨member, own, kind⟩
      rcases h with life | tag | uncompared | inStep
      · exact absurd member life
      · rw [foreign_eq_of_member member] at own
        exact absurd (by simpa using own) tag
      · rw [uncompared] at kind
        cases kind
      · exact inStep

/-! ### The transmitter's readback -/

/-- Settles O27. -/
theorem transmitterReadsItsFrameBack : Obligations.TransmitterReadsItsFrameBack := by
  intro line fl s phase flight off
  refine ⟨fun f same frame => ?_, fun different => ?_⟩
  · have carried := carried_of_frame frame
    have matched : readbackFails line s = false := by simp [readbackFails, flight, same]
    have mark : verdictMark (some f) false false true s = none := by simp [verdictMark]
    rw [exec_frameReceived phase]
    simp [receptionOf, mismatchesAfter, matched, flight, frame, carried_eq, carried, mark, receivedIn]
  · have failed : readbackFails line s = true := by simp [readbackFails, flight, different]
    have mark : verdictMark (frameOf line) true false true s = if s.life = .halted then none else some .veto := by
      cases frameOf line <;> simp [verdictMark, off]
    have limit : (s.round.mismatches + 1 == Config.mismatchLimit) = (s.round.mismatches == 3) := by
      simp [Config.mismatchLimit]
    rw [exec_frameReceived phase]
    simp only [receptionOf, mismatchesAfter, failed, flight, carried_eq, Option.isSome_some, Bool.not_true,
      Bool.false_and, mark, limit]
    by_cases halted : s.life = .halted <;> cases frameOf line <;> simp [halted, misreadIn]

/-! ### The verdict -/

/-- The verdict on a frame that nobody marks with VETO or STALE: a NOTE's is its destination's (R36). -/
theorem verdictOf_clear {body : Body} (veto : someSlot slots .veto = false) (stale : someSlot slots .stale = false) :
    verdictOf body slots = match body with
      | .note dest _ _ =>
        match slots[dest] with
        | .taken => .accepted
        | .busy => .void .busy
        | _ => .void .noAnswer
      | _ => .accepted := by
  unfold verdictOf
  rw [veto, stale]
  cases body <;> rfl

theorem verdictOf_stale {body : Body} (veto : someSlot slots .veto = false) (stale : someSlot slots .stale = true) :
    verdictOf body slots = .void .stale := by
  simp [verdictOf, veto, stale]

/-- Settles O28: the lines of R36 in their order. -/
theorem verdictFollowsTheMarks : Obligations.VerdictFollowsTheMarks := by
  intro body slots
  refine ⟨clean_iff, ?_⟩
  by_cases veto : ∃ i : StationId, slots[i] = .veto
  · have vetoed := verdictOf_veto (body := body) veto
    obtain ⟨i, hi⟩ := veto
    rw [vetoed]
    refine ⟨⟨nofun, fun h => absurd hi (h.1 i)⟩, ⟨fun _ => ⟨i, hi⟩, fun _ => rfl⟩, ⟨nofun, fun h => absurd hi (h.1 i)⟩,
      ⟨nofun, fun h => absurd hi (h.1 i).1⟩, ⟨nofun, fun h => absurd hi (h.1 i).1⟩⟩
  have noVeto : ∀ i : StationId, slots[i] ≠ .veto := fun i hi => veto ⟨i, hi⟩
  have noVeto' := (someSlot_eq_false (slots := slots) .veto).2 noVeto
  by_cases stale : ∃ i : StationId, slots[i] = .stale
  · rw [verdictOf_stale noVeto' ((someSlot_iff _).2 stale)]
    obtain ⟨i, hi⟩ := stale
    refine ⟨⟨nofun, fun h => absurd hi (h.2.1 i)⟩, ⟨nofun, fun h => absurd h veto⟩, ⟨fun _ => ⟨noVeto, i, hi⟩, fun _ => rfl⟩,
      ⟨nofun, fun h => absurd hi (h.1 i).2⟩, ⟨nofun, fun h => absurd hi (h.1 i).2⟩⟩
  have noStale : ∀ i : StationId, slots[i] ≠ .stale := fun i hi => stale ⟨i, hi⟩
  rw [verdictOf_clear noVeto' ((someSlot_eq_false (slots := slots) .stale).2 noStale)]
  have clear (i : StationId) : slots[i.val] ≠ .veto ∧ slots[i.val] ≠ .stale := ⟨noVeto i, noStale i⟩
  cases body with
  | note dest topic payload =>
    cases mark : slots[dest] with
    | veto => exact absurd mark (noVeto dest)
    | stale => exact absurd mark (noStale dest)
    | empty =>
      have mark : slots[dest.val] = .empty := mark
      simp [mark, clear]
    | busy =>
      have mark : slots[dest.val] = .busy := mark
      simp [mark, clear]
    | taken =>
      have mark : slots[dest.val] = .taken := mark
      simp [mark, clear]
  | _ => simp [clear]

end Sys2Proof.Machine
end

section
/-!
PROOFS. The timers (O44, O45, O47, O48).
-/

namespace Sys2Proof.Machine

/-- A failed join without the solo-veto LEAVE goes back to LISTENING with the backoff timer (R112). -/
theorem leaveJoin_of_not_soloVeto {s : State} (leave : s.pendingLeave ≠ some .soloVeto) :
    leaveJoin s = enterListening true s :=
  if_neg leave

/-- An open join that aborts has its LEAVE pending, its timers stopped and its catch-up queue gone (R113, R119). -/
theorem abortJoin_of_open {s : State} (kind : FaultKind) (sender : Option StationId)
    (leave : s.pendingLeave ≠ some .soloVeto) (isOpen : s.join.isOpen = true) :
    abortJoin kind sender s =
      { s with
        fault := some (s.fault.getD { kind := kind, sequence := ownCount s, sender := sender }),
        pendingLeave := some .abort,
        join := { s.join with abort := some .listening, joinTimer := none, stallTimer := none, catchUp := [] } } := by
  rw [abortJoin, if_pos isOpen, recordFault_eq]
  exact if_neg leave

/-- Settles O44. -/
theorem memberTimersAndLeasesRunOut : Obligations.MemberTimersAndLeasesRunOut := by
  refine ⟨fun s => ⟨fun _ _ => rfl, fun ms running => ?_, fun peer ms running => ?_⟩, fun k units s running => ?_⟩
  · exact congrArg Host.Outcome.next (if_pos (by simp [running]))
  · exact congrArg Host.Outcome.next (if_pos (by rw [running]; rfl))
  · have some : s.leases.any (runningFor k) = true := List.any_eq_true.2 ⟨_, running, by simp [runningFor]⟩
    refine congrArg Host.Outcome.next ((if_pos some).trans (congrArg
      (fun entry => { s with leases := s.leases.map entry, expireSet := addTo s.expireSet k }) (funext fun l => ?_)))
    cases l <;> rfl

/-- Settles O45. -/
theorem quietWindowFoundsAGroup : Obligations.QuietWindowFoundsAGroup := fun ms s life quiet =>
  congrArg Host.Outcome.next ((if_pos ⟨life, by simp [quiet]⟩).trans (by
    simp only [found, configBeats, Nat.one_mul]
    rfl))

/-- Settles O47. -/
theorem joinTimersEndTheJoin : Obligations.JoinTimersEndTheJoin := by
  refine fun ms s leave => ⟨fun life timer => ?_, fun life timer isOpen => ?_⟩
  · have ends : joinTimesOut s = enterListening true { s with join := { s.join with joinTimer := none } } :=
      (if_pos ⟨life, by simp [timer]⟩).trans (leaveJoin_of_not_soloVeto leave)
    exact ⟨_, congrArg Host.Outcome.next ends, rfl, rfl, rfl, rfl, rfl⟩
  · refine congrArg Host.Outcome.next ((if_pos ⟨life, by simp [timer]⟩).trans ((abortJoin_of_open
      (s := { s with join := { s.join with stallTimer := none } }) .copyStall none leave isOpen).trans ?_))
    simp only [ownCount, life]

/-- Settles O48. -/
theorem rejoinTimerEntersListening : Obligations.RejoinTimerEntersListening := fun _ _ life rejoin =>
  ⟨_, congrArg Host.Outcome.next (if_pos ⟨life, by simp [rejoin]⟩), rfl, rfl, rfl, rfl, rfl, rfl, rfl, rfl, rfl, rfl, rfl, rfl, rfl,
    rfl, rfl, rfl, rfl⟩

end Sys2Proof.Machine
end

section
/-!
SUPPORT. A close at an observer whose window holds no VETO: the counts, the handing on by the state of the life cycle, and what an
application, a fault action and an exclusion leave. Then what the observer's close does (O15, O30, O32, O33, O35, O56).
-/

namespace Sys2Proof.Machine

variable {s t : State} {f : Frame} {slots : VerdictSlots} {own taken : Bool}

/-! ### The handing on -/

theorem not_stop_of_compared (kind : comparedKind f.body = true) (r : StopReason) : f.body ≠ .stop r := fun h => by
  simp [h, comparedKind] at kind

theorem not_stop_of_table (table : isTable f.body = true) (r : StopReason) : f.body ≠ .stop r := fun h => by
  simp [h, isTable] at table

theorem not_note_of_table (table : isTable f.body = true) (d : StationId) (tp : Fin 16) (p : List Byte) :
    f.body ≠ .note d tp p := fun h => by
  simp [h, isTable] at table

theorem not_entry_of_compared (kind : comparedKind f.body = true) : isEntry f.body = false := by
  cases body : f.body <;> simp_all [comparedKind, isEntry]

theorem handOn_of_not_stop (notStop : ∀ r, f.body ≠ .stop r) :
    handOn f own taken slots s =
      match s.life with
      | .member => closeAtMember f own taken slots s
      | .entering | .copying => closeAtJoiner f own slots s
      | .listening => closeAtListener f slots s
      | .off | .excluded | .halted => s := by
  unfold handOn
  split
  · exact absurd ‹_› (notStop _)
  · rfl

theorem handOn_member (notStop : ∀ r, f.body ≠ .stop r) (life : s.life = .member) :
    handOn f own taken slots s = closeAtMember f own taken slots s := by
  rw [handOn_of_not_stop notStop, life]

theorem handOn_joiner (notStop : ∀ r, f.body ≠ .stop r) (life : Joining s) :
    handOn f own taken slots s = closeAtJoiner f own slots s := by
  obtain life | life := life <;> rw [handOn_of_not_stop notStop, life]

theorem handOn_listener (notStop : ∀ r, f.body ≠ .stop r) (life : s.life = .listening) :
    handOn f own taken slots s = closeAtListener f slots s := by
  rw [handOn_of_not_stop notStop, life]

theorem handOn_stop {reason : StopReason} (body : f.body = .stop reason) (accepted : verdictOf f.body slots = .accepted) :
    handOn f own taken slots s = acceptStop reason s := by
  rw [body] at accepted
  simp only [handOn, body, accepted, if_true]

/-- The state at the handing on of a clean frame received outside HALTED. -/
def counted (f : Frame) (s : State) : State :=
  { s with round := { s.round with pointer := some (f.sender + 1), soloVetoes := 0, inFlight := none } }

theorem afterCounts_clean (noVeto : clean slots = true) : afterCounts false f slots s = counted f s := by
  simp [afterCounts, noVeto, counted]

/-- The close at an observer of a clean frame. -/
theorem closeVerdictWindow_clean {mark : Option VerdictMark} (atVerdict : AtVerdict (received f mark) s)
    (flight : s.round.inFlight = none) (notVeto : mark ≠ some .veto) (noVeto : clean slots = true) :
    closeVerdictWindow slots s = endRound (handOn f false (mark == some .taken) slots (counted f s)) := by
  rw [closeVerdictWindow_observer atVerdict flight notVeto, afterCounts_clean noVeto]

/-- An in-step frame of the member's group, accepted, is heard and taken (R37, R43). -/
theorem closeAtMember_inStep (home : foreign f s = false)
    (inStep : own = true ∨ isEntry f.body = true ∨ f.sequence = s.replica.sequence)
    (accepted : verdictOf f.body slots = .accepted) :
    closeAtMember f own taken slots s = memberTakes f taken (hearSender f.sender s) := by
  have st : (if own || isEntry f.body then Standing.inStep else standing f.sequence s.replica.sequence) = .inStep := by
    obtain own | entry | count := inStep
    · simp [own]
    · simp [entry]
    · simp [standing_inStep count]
  rw [closeAtMember, if_neg (by simp [home]), st]
  simp [accepted]

/-- The close at a member that takes another station's in-step frame of its group. -/
theorem closeVerdictWindow_member {mark : Option VerdictMark} (atVerdict : AtVerdict (received f mark) s)
    (flight : s.round.inFlight = none) (notVeto : mark ≠ some .veto) (life : s.life = .member)
    (tag : s.replica.tag = some f.tag) (notStop : ∀ r, f.body ≠ .stop r)
    (inStep : isEntry f.body = true ∨ f.sequence = s.replica.sequence) (noVeto : clean slots = true)
    (accepted : verdictOf f.body slots = .accepted) :
    closeVerdictWindow slots s =
      endRound (memberTakes f (mark == some .taken) (hearSender f.sender (counted f s))) := by
  have home : foreign f (counted f s) = false := not_foreign_of_own_tag life tag
  rw [closeVerdictWindow_clean atVerdict flight notVeto noVeto, handOn_member (s := counted f s) notStop life,
    closeAtMember_inStep home (.inr inStep) accepted]

/-- The close at a member that applies another station's accepted in-step table frame. -/
theorem closeVerdictWindow_applies (atVerdict : AtVerdict (received f none) s) (flight : s.round.inFlight = none)
    (life : s.life = .member) (tag : s.replica.tag = some f.tag) (table : isTable f.body = true)
    (inStep : isEntry f.body = true ∨ f.sequence = s.replica.sequence) (unmarked : Unmarked slots) :
    closeVerdictWindow slots s = endRound (applyAtMember f (hearSender f.sender (counted f s))) := by
  rw [closeVerdictWindow_member atVerdict flight (by simp) life tag (not_stop_of_table table) inStep unmarked.clean
    (verdictOf_unmarked unmarked (not_note_of_table table)), memberTakes, if_pos table]

/-- A frame under VETO is dealt with by no observer, whatever its state. -/
theorem handOn_vetoed (veto : ∃ i : StationId, slots[i] = .veto) : handOn f own taken slots s = s := by
  have void : verdictOf f.body slots ≠ .accepted := by simp [verdictOf_veto veto]
  have notClean : clean slots = false := by simp [Machine.clean, (someSlot_iff _).2 veto]
  have member : closeAtMember f own taken slots s = s := by simp [closeAtMember, notClean, void]
  have joiner : closeAtJoiner f own slots s = s := by simp [closeAtJoiner, notClean, void]
  have listener : closeAtListener f slots s = s := by simp [closeAtListener, notClean, void]
  unfold handOn
  split
  · exact if_neg void
  · split
    · exact member
    · exact joiner
    · exact joiner
    · exact listener
    all_goals rfl

/-! ### Reads that correct one word (R181) -/

/-- The word is corrected, and the correction counted. -/
def corrected (w : StoreWord) (s : State) : State :=
  { s with ecc := writeBack w s.ecc, counters := { s.counters with corrected := saturate s.counters.corrected 1 } }

/-- The words a read meets: one with a correctable error, the others good. -/
structure OneCorrectable (w : StoreWord) (words : List StoreWord) (c : StoreCondition) : Prop where
  mem : w ∈ words
  correctable : conditionOf w c = .correctable
  good : ∀ v ∈ words, v ≠ w → conditionOf v c = .good

namespace OneCorrectable

variable {w : StoreWord} {words : List StoreWord}

theorem readable (h : OneCorrectable w words s.ecc) : readable words s = true := by
  rw [Machine.readable, readWords_correctable h.mem h.correctable h.good]

theorem afterReads (h : OneCorrectable w words s.ecc) : afterReads words s = corrected w s := by
  simp only [Machine.afterReads, readWords_correctable h.mem h.correctable h.good]
  rfl

theorem allGood (h : OneCorrectable w words s.ecc) : AllGood words (corrected w s).ecc := fun v mem => by
  simp only [corrected, conditionOf_writeBack]
  split
  · rfl
  · exact h.good v mem ‹_›

end OneCorrectable

/-- Of the words a read meets one is uncorrectable and none correctable. -/
abbrev Damaged (words : List StoreWord) (c : StoreCondition) : Prop :=
  (∃ w ∈ words, conditionOf w c = .uncorrectable) ∧ ∀ w ∈ words, conditionOf w c ≠ .correctable

theorem Damaged.readable {words : List StoreWord} (h : Damaged words s.ecc) : readable words s = false := by
  rw [Machine.readable, readWords_uncorrectable h.1 h.2]

theorem Damaged.afterReads {words : List StoreWord} (h : Damaged words s.ecc) : afterReads words s = s := by
  simp [Machine.afterReads, readWords_uncorrectable h.1 h.2]

/-! ### The application at a member -/

/-- Every application reads the roster. -/
theorem roster_mem_departureReads (x : StationId) (r : Replica) : StoreWord.roster ∈ departureReads x r := by
  unfold departureReads
  split <;> simp

theorem roster_mem_applicationReads (table : isTable f.body = true) (x : StationId) (r : Replica) :
    StoreWord.roster ∈ applicationReads x f r := by
  have lockFrame (k : LockId) : StoreWord.roster ∈ lockFrameReads k f r := by
    unfold lockFrameReads
    split <;> simp
  cases body : f.body with
  | claim k _ _ _ _ => simpa [applicationReads, body] using lockFrame k
  | yield k _ => simpa [applicationReads, body] using lockFrame k
  | expire k => simpa [applicationReads, body] using lockFrame k
  | evict y =>
    simp only [applicationReads, body]
    split
    · exact roster_mem_departureReads y r
    · simp
  | leave => simpa [applicationReads, body] using roster_mem_departureReads f.sender r
  | entry i =>
    have departs := List.mem_cons_of_mem StoreWord.join (roster_mem_departureReads f.sender r)
    simp only [applicationReads, body]
    split
    · split
      · simp [allWords]
      · exact departs
    · exact departs
  | admission _ _ => simp [applicationReads, body]
  | beacon | decline | copyRoster | copyLock | note | stop => simp [isTable, body] at table
  -- RECALL, whose constructor's name Mathlib keeps for a command of its own.
  | _ k _ _ => simpa [applicationReads, body] using lockFrame k

/-- Over words that are good a member that the frame does not evict applies it. -/
theorem applyAtMember_allGood (good : AllGood (applicationReads (self s) f s.replica) s.ecc) (stays : evictsSelf f s = false) :
    applyAtMember f s = tellApplied f (applyFrame f s.replica) s := by
  simp [applyAtMember, afterReads_allGood good, readable_allGood good, stays]

/-- An application that meets an uncorrectable word is abandoned whole (R182). -/
theorem applyAtMember_damaged (damaged : Damaged (applicationReads (self s) f s.replica) s.ecc) :
    applyAtMember f s = storageFault (some f.sender) s := by
  simp [applyAtMember, damaged.readable, damaged.afterReads]

/-- An application that corrects a word has the effect it has with that word good and the correction counted (R181). -/
theorem applyAtMember_correctable {w : StoreWord} (h : OneCorrectable w (applicationReads (self s) f s.replica) s.ecc) :
    applyAtMember f s = applyAtMember f (corrected w s) := by
  have good : AllGood (applicationReads (self (corrected w s)) f (corrected w s).replica) (corrected w s).ecc := h.allGood
  simp only [applyAtMember, afterReads_allGood good, readable_allGood good]
  rw [h.afterReads, h.readable]

/-- The records after an exclusion or a halt, the note held said as the spec does (R129, R157). -/
theorem noteArrived_eq (ns : List InboundNote) :
    (if ns.isEmpty then [] else [Record.noteArrived]) = if ns = [] then [] else [.noteArrived] := by
  cases ns <;> rfl

theorem exclude_records_eq (r : ExclusionReason) (s : State) :
    (exclude r s).records = .stateChanged (.excluded r) :: (if s.inbound = [] then [] else [.noteArrived]) := by
  rw [exclude_records, noteArrived_eq]

theorem enterHalted_records_eq (r : StopReason) (p : Option StopReason) (s : State) :
    (enterHalted r p s).records = .stateChanged (.halted r) :: (if s.inbound = [] then [] else [.noteArrived]) := by
  rw [enterHalted_records, noteArrived_eq]

/-- The fault action of an uncorrectable word (R182): the station is EXCLUDED, its replica cleared, or HALTED, its
replica frozen. -/
def FaultAction (s t : State) : Prop :=
  t.config = s.config ∧ t.foundingCount = s.foundingCount ∧ t.inbound = s.inbound ∧ t.counters = s.counters ∧
  t.straps = s.straps ∧ t.tickets = Vector.replicate 16 none ∧ t.hostQueue = [] ∧ t.leases = [] ∧ t.copy = none ∧
  (stopOnFault s = false →
    t.life = .excluded ∧ t.exclusionReason = some .uncorrectable ∧ t.replica = .cleared ∧ t.pendingStop = s.pendingStop ∧
    t.records = .stateChanged (.excluded .uncorrectable) :: (if s.inbound = [] then [] else [.noteArrived])) ∧
  (stopOnFault s = true →
    t.life = .halted ∧ t.haltReason = some .fault ∧ t.replica = s.replica ∧ t.pendingStop = some .fault ∧
    t.records = .stateChanged (.halted .fault) :: (if s.inbound = [] then [] else [.noteArrived]))

theorem storageFault_excludes (sender : Option StationId) (clear : stopOnFault s = false) :
    storageFault sender s = exclude .uncorrectable (recordFault .uncorrectable (ownCount s) sender s) :=
  if_neg (by simp [clear])

theorem storageFault_halts (sender : Option StationId) (set : stopOnFault s = true) :
    storageFault sender s = enterHalted .fault (some .fault) (recordFault .uncorrectable (ownCount s) sender s) :=
  if_pos set

theorem storageFault_action (sender : Option StationId) (s : State) : FaultAction s (storageFault sender s) := by
  cases stop : stopOnFault s with
  | false =>
    rw [storageFault_excludes sender stop, recordFault_eq]
    exact ⟨rfl, rfl, rfl, rfl, rfl, rfl, rfl, rfl, rfl,
      fun _ => ⟨rfl, rfl, rfl, rfl, exclude_records_eq .uncorrectable s⟩, fun set => absurd (stop.symm.trans set) (by decide)⟩
  | true =>
    rw [storageFault_halts sender stop, recordFault_eq]
    exact ⟨rfl, rfl, rfl, rfl, rfl, rfl, rfl, rfl, rfl, fun clear => absurd (stop.symm.trans clear) (by decide),
      fun _ => ⟨rfl, rfl, rfl, rfl, enterHalted_records_eq .fault (some .fault) s⟩⟩

theorem storageFault_pointer (sender : Option StationId) (s : State) :
    (storageFault sender s).round.pointer = s.round.pointer := by
  cases stop : stopOnFault s with
  | false => rw [storageFault_excludes sender stop, recordFault_eq]; rfl
  | true => rw [storageFault_halts sender stop, recordFault_eq]; rfl

theorem storageFault_fault (sender : Option StationId) (s : State) :
    (storageFault sender s).fault =
      some (s.fault.getD { kind := .uncorrectable, sequence := ownCount s, sender := sender }) := by
  cases stop : stopOnFault s with
  | false => rw [storageFault_excludes sender stop, recordFault_eq]; rfl
  | true => rw [storageFault_halts sender stop, recordFault_eq]; rfl

theorem ownCount_member (life : s.life = .member) : ownCount s = s.replica.sequence := by rw [ownCount, life]

theorem ownCount_joiner (life : Joining s) : ownCount s = s.join.tracked.getD 0 := by
  obtain life | life := life <;> rw [ownCount, life]

/-! ### Looks at damaged words -/

theorem look_damaged_halted {words : List StoreWord} {bytes : State → List Byte} (damaged : Damaged words s.ecc)
    (life : s.life = .halted) :
    look words bytes s = answered [0x02]
      { s with fault := some (s.fault.getD { kind := .uncorrectable, sequence := s.replica.sequence, sender := none }) } := by
  rw [look, damaged.readable, damaged.afterReads, if_neg Bool.false_ne_true, if_pos life, recordFault_eq]
  rfl

theorem look_damaged_member {words : List StoreWord} {bytes : State → List Byte} (damaged : Damaged words s.ecc)
    (life : s.life = .member) : look words bytes s = answered [0x02] (storageFault none s) := by
  rw [look, damaged.readable, damaged.afterReads, if_neg Bool.false_ne_true, if_neg (by simp [life])]
  rfl

theorem look_correctable {w : StoreWord} {words : List StoreWord} {bytes : State → List Byte}
    (h : OneCorrectable w words s.ecc) : look words bytes s = look words bytes (corrected w s) := by
  rw [look, h.readable, h.afterReads, look_allGood h.allGood]
  rfl

/-- What O15 says of one look: a command that in MEMBER and HALTED looks at these words. -/
theorem damaged_look {c : Instr} {words : List StoreWord} {bytes : State → List Byte} {s : State}
    (looks : ∀ t : State, t.port = s.port → t.life = s.life → t.life = .member ∨ t.life = .halted →
      exec c t = .next (look words bytes t)) :
    (Damaged words s.ecc →
      let fault := some (s.fault.getD { kind := .uncorrectable, sequence := s.replica.sequence, sender := none })
      (s.life = .halted → exec c s = .next (answered [0x02] { s with fault := fault })) ∧
      (s.life = .member →
        ∃ t, exec c s = .next t ∧ t.port.response = [0x02] ∧ t.port.phase = .responding ∧ t.fault = fault ∧
          t.round.pointer = s.round.pointer ∧ FaultAction s t)) ∧
    (∀ w ∈ words, conditionOf w s.ecc = .correctable → (∀ v ∈ words, v ≠ w → conditionOf v s.ecc = .good) →
      s.life = .member ∨ s.life = .halted → exec c s = exec c (corrected w s)) := by
  refine ⟨fun damaged => ⟨fun life => ?_, fun life => ?_⟩, fun w mem correctable good life => ?_⟩
  · rw [looks s rfl rfl (.inr life), look_damaged_halted damaged life]
  · rw [looks s rfl rfl (.inl life), look_damaged_member damaged life, ← ownCount_member life]
    exact ⟨_, rfl, rfl, rfl, storageFault_fault none s, storageFault_pointer none s, storageFault_action none s⟩
  · rw [looks s rfl rfl life, looks (corrected w s) rfl rfl life, look_correctable ⟨mem, correctable, good⟩]

/-- Settles O15. -/
theorem damagedWordStopsTheMember : Obligations.DamagedWordStopsTheMember := by
  refine ⟨?_, fun f slots s atVerdict flight life tag table inStep unmarked => ?_⟩
  · rintro c bytes words s (⟨k, lock, rfl, hk, rfl, rfl⟩ | ⟨rfl, rfl, rfl⟩) collected
    · exact damaged_look (bytes := fun s => lockBytes s s.replica.locks[k]) fun t port _ life => by
        rw [exec_lookLock_taken (by rw [Collected, port]; exact collected), takeLookLock_of_args life hk]
    · exact damaged_look fun t port _ life => by
        rw [exec_lookRoster_taken (by rw [Collected, port]; exact collected), takeLookRoster_of_life life]
  · have closes (u : State) (atVerdict : AtVerdict (received f none) u) (flight : u.round.inFlight = none)
        (life : u.life = .member) (replica : u.replica = s.replica) :
        exec (.verdictWindowClose slots) u = .next (endRound (applyAtMember f (hearSender f.sender (counted f u)))) :=
      congrArg Host.Outcome.next
        (closeVerdictWindow_applies atVerdict flight life (replica ▸ tag) table (replica ▸ inStep) unmarked)
    refine ⟨fun damaged => ?_, fun w mem correctable good => ?_⟩
    · rw [closes s atVerdict flight life rfl, applyAtMember_damaged (s := hearSender f.sender (counted f s)) damaged,
        ← ownCount_member life]
      exact ⟨_, rfl, storageFault_pointer _ _, storageFault_fault _ _, storageFault_action _ _⟩
    · have one : OneCorrectable w (applicationReads s.straps.id f s.replica) s.ecc := ⟨mem, correctable, good⟩
      exact (closes s atVerdict flight life rfl).trans ((congrArg (fun u => Host.Outcome.next (endRound u))
        (applyAtMember_correctable (s := hearSender f.sender (counted f s)) one)).trans
          (closes (corrected w s) atVerdict flight life rfl).symm)

end Sys2Proof.Machine
end

section
/-! The settlements of O30, O32, O33, O35 and O56: what the close of a clean or voided frame does at an observer. -/

namespace Sys2Proof.Machine

variable {s t : State} {f : Frame} {slots : VerdictSlots}

/-! ### What an application tells the entry engine (R103 to R109) -/

theorem Told.keeps {α : Type} (h : Told s t) (field : State → α) (kept : field (withTold t s) = field s) :
    field t = field s :=
  (congrArg field h.eq).trans kept

theorem withdrawDecline_declines (f : Frame) (s : State) :
    (withdrawDecline f s).declines =
      if isEntry f.body then s.declines.filter fun d => d.joiner != f.sender else s.declines := by
  unfold withdrawDecline
  cases f.body <;> rfl

theorem withdrawDecline_copySide (f : Frame) (s : State) :
    (withdrawDecline f s).copy = s.copy ∧ (withdrawDecline f s).copyRetry = s.copyRetry := by
  unfold withdrawDecline
  split <;> exact ⟨rfl, rfl⟩

theorem abandonCopy_straps (changes : List RosterChange) (s : State) : (abandonCopy changes s).straps = s.straps := by
  unfold abandonCopy
  split
  · split <;> rfl
  · rfl

/-- An application that touches the joiner's standing ends the copy (R109). -/
theorem abandonCopy_touched {c : CopyState} {changes : List RosterChange} (copy : s.copy = some c)
    (touched : ∃ x ∈ changes, x.id = c.joiner) : abandonCopy changes s = { s with copy := none, copyRetry := .zero } := by
  have any : changes.any (fun x => x.id == c.joiner) = true := by simpa using touched
  simp only [abandonCopy, copy, any, if_true]

theorem abandonCopy_untouched {changes : List RosterChange}
    (untouched : ∀ c, s.copy = some c → ∀ x ∈ changes, x.id ≠ c.joiner) : abandonCopy changes s = s := by
  unfold abandonCopy
  split
  · next c copy =>
    have none : changes.any (fun x => x.id == c.joiner) = false := by simpa using untouched c copy
    simp only [none, Bool.false_eq_true, if_false]
  · rfl

/-- The DECLINE the answering member queues, if any (R104, R105). -/
def ownDecline (self : StationId) : Option EntryOutcome → List Decline
  | some (.declined m j reason) => if m = self then [{ joiner := j, reason := reason }] else []
  | _ => []

theorem answerEntry_declines (o : Option EntryOutcome) (s : State) :
    (answerEntry o s).declines = s.declines ++ ownDecline (self s) o := by
  match o with
  | none => exact (List.append_nil _).symm
  | some (.declined m j reason) =>
    by_cases own : m = self s
    · simp [answerEntry, ownDecline, own]
    · simp [answerEntry, ownDecline, own]
  | some (.opened m j) =>
    refine Eq.trans ?_ (List.append_nil _).symm
    unfold answerEntry
    dsimp only
    split <;> rfl

theorem answerEntry_opened (j : StationId) (s : State) :
    answerEntry (some (.opened (self s) j)) s = { s with copy := some (newCopy j s.replica), copyRetry := .zero } :=
  if_pos rfl

theorem answerEntry_copySide {o : Option EntryOutcome} (notOpened : ∀ j, o ≠ some (.opened (self s) j)) :
    (answerEntry o s).copy = s.copy ∧ (answerEntry o s).copyRetry = s.copyRetry := by
  match o with
  | none => exact ⟨rfl, rfl⟩
  | some (.declined m j reason) =>
    unfold answerEntry
    dsimp only
    split <;> exact ⟨rfl, rfl⟩
  | some (.opened m j) =>
    have other : m ≠ self s := fun own => notOpened j (own ▸ rfl)
    simp [answerEntry, other]

/-- The engine's part of an application: a DECLINE withdrawn, the copy ended or kept, the ENTRY answered. -/
def engineAfter (f : Frame) (a : Applied) (s : State) : State :=
  answerEntry a.entry (abandonCopy a.changes (withdrawDecline f { s with replica := a.replica }))

section Engine

variable {a : Applied}

theorem engine_replica : (abandonCopy a.changes (withdrawDecline f { s with replica := a.replica })).replica = a.replica := by
  rw [abandonCopy_replica, withdrawDecline_replica]

theorem engine_self : self (abandonCopy a.changes (withdrawDecline f { s with replica := a.replica })) = self s := by
  rw [self, abandonCopy_straps]
  unfold withdrawDecline
  split <;> rfl

theorem engineAfter_declines :
    (engineAfter f a s).declines =
      (if isEntry f.body then s.declines.filter fun d => d.joiner != f.sender else s.declines) ++
        ownDecline (self s) a.entry := by
  rw [engineAfter, answerEntry_declines, engine_self, abandonCopy_declines, withdrawDecline_declines]

theorem engineAfter_opened {j : StationId} (opened : a.entry = some (.opened (self s) j)) :
    (engineAfter f a s).copy = some (newCopy j a.replica) ∧ (engineAfter f a s).copyRetry = .zero := by
  rw [engineAfter, opened, ← engine_self (f := f) (a := a), answerEntry_opened, engine_replica]
  exact ⟨rfl, rfl⟩

theorem engineAfter_touched {c : CopyState} (notOpened : ∀ j, a.entry ≠ some (.opened (self s) j)) (copy : s.copy = some c)
    (touched : ∃ x ∈ a.changes, x.id = c.joiner) :
    (engineAfter f a s).copy = none ∧ (engineAfter f a s).copyRetry = .zero := by
  obtain ⟨copyKept, -⟩ := withdrawDecline_copySide f { s with replica := a.replica }
  obtain ⟨copyAfter, retryAfter⟩ := answerEntry_copySide (o := a.entry)
    (s := abandonCopy a.changes (withdrawDecline f { s with replica := a.replica })) (by rwa [engine_self])
  rw [engineAfter, copyAfter, retryAfter, abandonCopy_touched (copyKept.trans copy) touched]
  exact ⟨rfl, rfl⟩

theorem engineAfter_untouched (notOpened : ∀ j, a.entry ≠ some (.opened (self s) j))
    (untouched : ∀ c, s.copy = some c → ∀ x ∈ a.changes, x.id ≠ c.joiner) :
    (engineAfter f a s).copy = s.copy ∧ (engineAfter f a s).copyRetry = s.copyRetry := by
  obtain ⟨copyKept, retryKept⟩ := withdrawDecline_copySide f { s with replica := a.replica }
  obtain ⟨copyAfter, retryAfter⟩ := answerEntry_copySide (o := a.entry)
    (s := abandonCopy a.changes (withdrawDecline f { s with replica := a.replica })) (by rwa [engine_self])
  rw [engineAfter, copyAfter, retryAfter, abandonCopy_untouched fun c copy => untouched c (copyKept.symm.trans copy)]
  exact ⟨copyKept, retryKept⟩

end Engine

/-! ### The application at an observer -/

theorem roster_good_of_reads (table : isTable f.body = true) {x : StationId} {r : Replica}
    (good : AllGood (applicationReads x f r) s.ecc) : s.ecc.roster = .good :=
  good _ (roster_mem_applicationReads table x r)

/-- The close at a member that applies another station's frame over good words and is not evicted by it. -/
theorem closeVerdictWindow_tells (atVerdict : AtVerdict (received f none) s) (flight : s.round.inFlight = none)
    (life : s.life = .member) (tag : s.replica.tag = some f.tag) (table : isTable f.body = true)
    (inStep : isEntry f.body = true ∨ f.sequence = s.replica.sequence) (unmarked : Unmarked slots)
    (good : AllGood (applicationReads s.straps.id f s.replica) s.ecc) (stays : evictsSelf f s = false) :
    closeVerdictWindow slots s =
      endRound (tellApplied f (applyFrame f s.replica) (hearSender f.sender (counted f s))) := by
  rw [closeVerdictWindow_applies atVerdict flight life tag table inStep unmarked,
    applyAtMember_allGood (s := hearSender f.sender (counted f s)) good stays]
  rfl

/-- Settles O30. -/
theorem memberAppliesAnAcceptedTableFrame : Obligations.MemberAppliesAnAcceptedTableFrame := by
  intro f slots s atVerdict flight life tag table inStep unmarked good stays applied copied
  have closes := closeVerdictWindow_tells atVerdict flight life tag table inStep unmarked good stays
  have roster := roster_good_of_reads table good
  have told := tellApplied_told f applied (hearSender f.sender (counted f s)) roster
  have replica := tellApplied_replica f applied (hearSender f.sender (counted f s)) roster
  have engine : SameEngine (engineAfter f applied (hearSender f.sender (counted f s))) _ :=
    tellApplied_engine f applied (hearSender f.sender (counted f s)) roster
  refine ⟨_, congrArg Host.Outcome.next closes, replica,
    (congrArg Replica.sequence replica).trans (applyFrame_sequence f s.replica),
    (congrArg roundOver (told.keeps State.round rfl)).trans rfl, (told.keeps State.life rfl).trans life,
    told.keeps State.config rfl,
    told.keeps State.port rfl, told.keeps State.straps rfl, told.keeps State.counters rfl, told.keeps State.inbound rfl,
    told.keeps State.fault rfl, told.keeps State.pendingStop rfl, told.keeps State.pendingLeave rfl,
    told.keeps State.ecc rfl, told.keeps State.foundingCount rfl, told.keeps State.join rfl,
    told.keeps State.listening rfl, told.keeps State.rejoin rfl, ?_, fun j opened => ?_, fun notOpened =>
      ⟨fun c copy touched => ?_, fun untouched => ?_⟩⟩
  · refine engine.declines.trans (engineAfter_declines.trans ?_)
    rfl
  · obtain ⟨copy, retry⟩ := engineAfter_opened (f := f) (a := applied) (s := hearSender f.sender (counted f s)) opened
    exact ⟨engine.copyRetry.trans retry, engine.copy.trans copy⟩
  · obtain ⟨copy, retry⟩ := engineAfter_touched (f := f) (s := hearSender f.sender (counted f s)) notOpened copy touched
    exact ⟨engine.copy.trans copy, engine.copyRetry.trans retry⟩
  · obtain ⟨copy, retry⟩ := engineAfter_untouched (f := f) (s := hearSender f.sender (counted f s)) notOpened untouched
    exact ⟨engine.copy.trans copy, engine.copyRetry.trans retry⟩

theorem evictsSelf_of_ne (h : f.body ≠ .evict s.straps.id) : evictsSelf f s = false := by
  unfold evictsSelf
  split
  · next x body =>
    have other : x ≠ self s := fun own => h (body.trans (congrArg Body.evict own))
    simp [other]
  · rfl

theorem sound_allGood (sound : s.ecc = .sound) (words : List StoreWord) : AllGood words s.ecc := by
  rw [sound]
  exact fun w _ => conditionOf_sound w

/-- A member over sound storage holds the replica that the application of another station's frame gives. -/
theorem close_replica (atVerdict : AtVerdict (received f none) s) (flight : s.round.inFlight = none)
    (life : s.life = .member) (tag : s.replica.tag = some f.tag) (table : isTable f.body = true)
    (inStep : isEntry f.body = true ∨ f.sequence = s.replica.sequence) (unmarked : Unmarked slots)
    (other : f.body ≠ .evict s.straps.id) (sound : s.ecc = .sound) :
    ∃ t, exec (.verdictWindowClose slots) s = .next t ∧ t.replica = (applyFrame f s.replica).replica ∧ t.life = .member := by
  have good := sound_allGood sound (applicationReads s.straps.id f s.replica)
  have roster := roster_good_of_reads table good
  exact ⟨_, congrArg Host.Outcome.next
      (closeVerdictWindow_tells atVerdict flight life tag table inStep unmarked good (evictsSelf_of_ne other)),
    tellApplied_replica f _ (hearSender f.sender (counted f s)) roster,
    ((tellApplied_told f _ (hearSender f.sender (counted f s)) roster).keeps State.life rfl).trans life⟩

/-- Settles O56. -/
theorem membersStayInAgreement : Obligations.MembersStayInAgreement := by
  intro f slots s₁ s₂ agree life₁ life₂ at₁ at₂ flight₁ flight₂ tag table inStep unmarked other₁ other₂ sound₁ sound₂
  obtain ⟨t₁, closes₁, replica₁, member₁⟩ := close_replica at₁ flight₁ life₁ tag table inStep unmarked other₁ sound₁
  obtain ⟨t₂, closes₂, replica₂, member₂⟩ :=
    close_replica at₂ flight₂ life₂ (agree ▸ tag) table (agree ▸ inStep) unmarked other₂ sound₂
  refine ⟨t₁, t₂, closes₁, closes₂, ?_, member₁, member₂, ?_⟩
  · rw [replica₁, replica₂, agree]
  · rw [replica₁, applyFrame_sequence]

/-! ### Voids by VETO at an observer -/

/-- Short of the limit a VETO of line 2 does not bring the solo-veto count to it (R65, R66). -/
theorem soloVetoReached_below {r : Reception}
    (count : soloVetoesAfter r slots s = if vetoedByOthers slots s.straps.id then 0 else s.round.soloVetoes + 1)
    (below : (∃ i : StationId, i ≠ s.straps.id ∧ slots[i] = .veto) ∨ s.round.soloVetoes + 1 < 4) :
    soloVetoReached r slots s = false := by
  rw [soloVetoReached, count]
  obtain others | short := below
  · simp [(vetoedByOthers_iff _).2 others, Config.soloVetoLimit]
  · split
    · simp [Config.soloVetoLimit]
    · have under : s.round.soloVetoes + 1 ≠ Config.soloVetoLimit := by
        simp only [Config.soloVetoLimit]
        omega
      simp [under]

/-- Settles O32. -/
theorem voidedFrameMovesOnlyTheRoundAndCounts : Obligations.VoidedFrameMovesOnlyTheRoundAndCounts := by
  refine ⟨fun halted f mark slots s atVerdict notVeto flight veto => congrArg Host.Outcome.next ?_,
    fun carried slots s atVerdict flight won own below => ?_⟩
  · have notClean : clean slots = false := by simp [Machine.clean, (someSlot_iff _).2 veto]
    rw [closeVerdictWindow_observer atVerdict flight notVeto, handOn_vetoed veto, afterCounts, notClean]
    rfl
  · have count : soloVetoesAfter (unreceived carried) slots s =
        if vetoedByOthers slots s.straps.id then 0 else s.round.soloVetoes + 1 :=
      (if_pos rfl).trans (if_neg (by simp [wonSilently, won]))
    have notReached := soloVetoReached_below count below
    refine ⟨soloVetoesAfter (unreceived carried) slots s, fun others => ?_, fun alone => ?_,
      congrArg Host.Outcome.next ((closeVerdictWindow_unreceived atVerdict flight own).trans ?_)⟩
    · rw [count, if_pos ((vetoedByOthers_iff _).2 others)]
    · rw [count, if_neg (by simp [(vetoedByOthers_eq_false _).2 alone])]
    · rw [notReached]
      cases carried <;> rfl

/-! ### Foreign groups (R46, R102) -/

theorem closeAtMember_foreign {own taken : Bool} (away : foreign f s = true) (noVeto : clean slots = true)
    (notEntry : isEntry f.body = false) : closeAtMember f own taken slots s = rankForeign f s.replica.tag s := by
  rw [closeAtMember, if_pos away, if_pos ⟨noVeto, by simp [notEntry]⟩]

theorem closeAtJoiner_foreign {own : Bool} (away : foreign f s = true) (noVeto : clean slots = true)
    (notEntry : isEntry f.body = false) : closeAtJoiner f own slots s = rankForeign f s.join.target s := by
  rw [closeAtJoiner, if_pos away, if_pos ⟨noVeto, by simp [notEntry]⟩]

/-- The close of a clean foreign frame at a member or joiner of group `g`. -/
theorem closeVerdictWindow_foreign {g : GroupTag} (atVerdict : AtVerdict (received f none) s)
    (flight : s.round.inFlight = none) (kind : comparedKind f.body = true) (differs : f.tag ≠ g) (noVeto : clean slots = true)
    (home : (s.life = .member ∧ s.replica.tag = some g) ∨ (Joining s ∧ s.join.target = some g)) :
    closeVerdictWindow slots s = endRound (rankForeign f (some g) (counted f s)) := by
  have notSame : (some g != some f.tag) = true := by simpa using Ne.symm differs
  have notEntry := not_entry_of_compared kind
  rw [closeVerdictWindow_clean atVerdict flight (by simp) noVeto]
  obtain ⟨life, tag⟩ | ⟨life, target⟩ := home
  · have away : foreign f (counted f s) = true :=
      (foreign_eq_of_member life).trans ((congrArg (· != some f.tag) tag).trans notSame)
    rw [handOn_member (s := counted f s) (not_stop_of_compared kind) life, closeAtMember_foreign away noVeto notEntry, ← tag]
    rfl
  · have away : foreign f (counted f s) = true :=
      (foreign_eq_of_joiner life).trans ((congrArg (· != some f.tag) target).trans notSame)
    rw [handOn_joiner (s := counted f s) (not_stop_of_compared kind) life, closeAtJoiner_foreign away noVeto notEntry,
      ← target]
    rfl

theorem rankForeign_higher {g : GroupTag} (higher : ranksHigher f.tag g = true) :
    rankForeign f (some g) s = exclude .group (recordFault .group (ownCount s) (some f.sender) s) :=
  if_pos higher

theorem rankForeign_lower {g : GroupTag} (lower : ranksHigher f.tag g = false) : rankForeign f (some g) s = s :=
  if_neg (by simp [lower])

/-- Settles O35. -/
theorem higherGroupExcludesTheStation : Obligations.HigherGroupExcludesTheStation := by
  intro f g slots s atVerdict flight kind differs noVeto home
  have closes := closeVerdictWindow_foreign atVerdict flight kind differs (clean_iff.2 noVeto) home
  refine ⟨fun higher => ?_, fun lower => congrArg Host.Outcome.next ?_⟩
  · refine ⟨_, congrArg Host.Outcome.next closes, ?_⟩
    rw [rankForeign_higher higher, recordFault_eq]
    exact ⟨rfl, rfl, rfl, rfl, rfl, rfl, rfl, rfl, rfl⟩
  · rw [closes, rankForeign_lower lower]
    rfl

/-! ### A NOTE to this station (R153, R157) -/

theorem verdictOf_taken {d : StationId} {tp : Fin 16} {p : List Byte} (unmarked : Unmarked slots) (taken : slots[d] = .taken) :
    verdictOf (.note d tp p) slots = .accepted := by
  simp [verdictOf, unmarked.noVeto, unmarked.noStale, taken]

theorem storeNote_eq {topic : Fin 16} {payload : List Byte} (body : f.body = .note s.straps.id topic payload)
    (room : s.inbound.length < 8) :
    storeNote f true s =
      { s with
        inbound := s.inbound ++ [{ sender := f.sender, topic := topic, payload := payload }],
        records := if .noteArrived ∈ s.records then s.records else s.records ++ [.noteArrived] } := by
  have stored : storeNote f true s =
      addRecord .noteArrived
        { s with inbound := s.inbound ++ [{ sender := f.sender, topic := topic, payload := payload }] } := by
    simp only [storeNote, body]
    exact if_pos ⟨rfl, trivial, room⟩
  rw [stored]
  simp [addRecord, enqueue]

/-- A silence timer that is held restarts when its station is heard (R84). -/
theorem hearSender_silence (x : StationId) (s : State) :
    (hearSender x s).monitor.silence =
      if s.monitor.silence[x] = .none then s.monitor.silence
      else put s.monitor.silence x (.running (3 * intervalMs (ownInterval s))) := by
  simp only [hearSender, apply_ite RosterMonitor.silence, ite_self]
  cases timer : s.monitor.silence[x] <;> rfl

theorem hearSender_pendingEvict (x : StationId) (s : State) :
    (hearSender x s).monitor.pendingEvict = dropFrom s.monitor.pendingEvict x := by
  simp only [hearSender, apply_ite RosterMonitor.pendingEvict, ite_self]

theorem hearSender_beaconTimer (x : StationId) (s : State) :
    (hearSender x s).monitor.beaconTimer = if x = s.straps.id then groupBeats 1 s else s.monitor.beaconTimer :=
  apply_ite RosterMonitor.beaconTimer (x = self s) _ _

theorem hearSender_beaconDue (x : StationId) (s : State) :
    (hearSender x s).monitor.beaconDue = if x = s.straps.id then false else s.monitor.beaconDue :=
  apply_ite RosterMonitor.beaconDue (x = self s) _ _

/-- Settles O33. -/
theorem acceptedNoteIsStored : Obligations.AcceptedNoteIsStored := by
  intro f topic payload slots s atVerdict flight body life tag inStep other taken unmarked room
  have notTable : isTable f.body = false := by rw [body]; rfl
  have notStop (r : StopReason) : f.body ≠ .stop r := by rw [body]; simp
  have accepted : verdictOf f.body slots = .accepted := by rw [body]; exact verdictOf_taken unmarked taken
  have closes := closeVerdictWindow_member atVerdict flight (by simp) life tag notStop (.inr inStep) unmarked.clean accepted
  rw [memberTakes, notTable, if_neg Bool.false_ne_true] at closes
  refine ⟨(hearSender f.sender (counted f s)).monitor,
    congrArg Host.Outcome.next (closes.trans (congrArg endRound
      (storeNote_eq (s := hearSender f.sender (counted f s)) body room))),
    (hearSender_beaconTimer f.sender (counted f s)).trans (if_neg other),
    (hearSender_beaconDue f.sender (counted f s)).trans (if_neg other), hearSender_pendingEvict f.sender (counted f s),
    fun none => (hearSender_silence f.sender (counted f s)).trans (if_pos none),
    fun held => (hearSender_silence f.sender (counted f s)).trans (if_neg held)⟩

end Sys2Proof.Machine
end

section
/-! The own frame's outcome at its close, and the settlement of O18. -/

namespace Sys2Proof.Machine

variable {s t u : State} {f : Frame} {fl : InFlight} {slots : VerdictSlots}

/-! ### The close of an own frame that no STALE marks -/

theorem staleOnOwn_of_none (noStale : someSlot slots .stale = false) : staleOnOwn slots s = s := by
  simp [staleOnOwn, noStale]

theorem passOutcome_accepted (wanted : fl.discarded = false) (accepted : verdictOf fl.frame.body slots = .accepted) :
    passOutcome fl slots s = sourceAccepted fl.offer s := by
  simp [passOutcome, wanted, accepted]

theorem passOutcome_void {c : VoidClass} (wanted : fl.discarded = false) (void : verdictOf fl.frame.body slots = .void c) :
    passOutcome fl slots s = sourceVoided fl.offer c (someSlot slots .stale) s := by
  simp [passOutcome, wanted, void]

theorem passOutcome_discarded (discarded : fl.discarded = true) : passOutcome fl slots s = s := if_pos discarded

/-- The own frame, accepted, leaves its source and is handed on (R40, R61). -/
theorem closeVerdictWindow_ownAccepted (atVerdict : AtVerdict (received fl.frame none) s)
    (flight : s.round.inFlight = some fl) (wanted : fl.discarded = false) (noVeto : clean slots = true)
    (noStale : someSlot slots .stale = false) (accepted : verdictOf fl.frame.body slots = .accepted) :
    closeVerdictWindow slots s =
      endRound (handOn fl.frame true false slots (sourceAccepted fl.offer (counted fl.frame s))) := by
  rw [closeVerdictWindow_own atVerdict flight, afterCounts_clean noVeto, accepted, passOutcome_accepted wanted accepted,
    staleOnOwn_of_none noStale]
  rfl

/-- The state at the outcome of an own frame that was read back whole and is void. -/
def voidCounted (f : Frame) (slots : VerdictSlots) (s : State) : State := countOwnVoided (afterCounts false f slots s)

/-- The own frame, void, goes back to its source (R40, R61). -/
theorem closeVerdictWindow_ownVoid {c : VoidClass} (atVerdict : AtVerdict (received fl.frame none) s)
    (flight : s.round.inFlight = some fl) (wanted : fl.discarded = false) (noStale : someSlot slots .stale = false)
    (void : verdictOf fl.frame.body slots = .void c) :
    closeVerdictWindow slots s =
      endRound (handOn fl.frame true false slots (sourceVoided fl.offer c false (voidCounted fl.frame slots s))) := by
  rw [closeVerdictWindow_own atVerdict flight, void, passOutcome_void wanted void, staleOnOwn_of_none noStale, noStale]
  rfl

theorem handOn_excluded {own taken : Bool} (notStop : ∀ r, f.body ≠ .stop r) (life : s.life = .excluded) :
    handOn f own taken slots s = s := by
  rw [handOn_of_not_stop notStop, life]

/-! ### LEAVE and STOP (R120, R121, R171) -/

/-- The station has left its group for this reason; nothing but a LEAVE's ending has been recorded. -/
def Left (reason : ExclusionReason) (rejoin : Timer) (s t : State) : Prop :=
  t.life = .excluded ∧ t.exclusionReason = some reason ∧ t.join = .none ∧ t.replica = .cleared ∧ t.rejoin = rejoin ∧
  t.pendingLeave = none ∧ t.tickets = Vector.replicate 16 none ∧ t.hostQueue = [] ∧ t.leases = [] ∧ t.fault = s.fault ∧
  t.config = s.config ∧ t.inbound = s.inbound ∧ t.foundingCount = s.foundingCount ∧ t.pendingStop = s.pendingStop ∧
  t.records = .stateChanged (.excluded reason) :: (if s.inbound = [] then [] else [.noteArrived])

/-- The rejoin timer after an exclusion that permits auto-rejoin (R131, R133). -/
theorem exclude_rejoin_permitted {r : ExclusionReason} (permits : permitsRejoin r = true) (s : State) :
    (exclude r s).rejoin = if autoRejoin s = true then some (2 * intervalMs (configInterval s)) else none :=
  if_congr (by rw [permits, Bool.and_true]; rfl) rfl rfl

theorem exclude_left (s : State) : Left .left none s (exclude .left s) :=
  ⟨rfl, rfl, rfl, rfl, if_neg (by simp [permitsRejoin]), rfl, rfl, rfl, rfl, rfl, rfl, rfl, rfl, rfl,
    exclude_records_eq .left s⟩

theorem exclude_soloVeto (s : State) :
    Left .soloVeto (if autoRejoin s = true then some (2 * intervalMs (configInterval s)) else none) s (exclude .soloVeto s) :=
  ⟨rfl, rfl, rfl, rfl, exclude_rejoin_permitted rfl s, rfl, rfl, rfl, rfl, rfl,
    rfl, rfl, rfl, rfl, exclude_records_eq .soloVeto s⟩

theorem takeLeave_member (life : s.life = .member) : takeLeave s = answer .ok (leaveAsMember s) := by
  rw [takeLeave, inStates_of_mem (by simp [life]), if_pos life]

theorem takeLeave_joining (life : Joining s) : takeLeave s = answer .ok (leaveWhileJoining s) := by
  have notMember : s.life ≠ .member := by rcases life with life | life <;> simp [life]
  rw [takeLeave, inStates_of_mem (by rcases life with life | life <;> simp [life]), if_neg notMember]

/-- A LEAVE already pending keeps its source. -/
theorem leaveAsMember_eq (s : State) : leaveAsMember s = { s with pendingLeave := some (s.pendingLeave.getD .command) } := by
  unfold leaveAsMember
  cases s
  dsimp only
  split
  · next some =>
    obtain ⟨source, rfl⟩ := Option.isSome_iff_exists.1 some
    rfl
  · next none =>
    rw [Option.not_isSome_iff_eq_none.1 none]
    rfl

theorem leaveEnds_member (life : s.life = .member) :
    leaveEnds s = if s.pendingLeave = some .soloVeto then exclude .soloVeto s else exclude .left s := by
  rw [leaveEnds, life]

theorem sourceAccepted_leave {o : Offer} (source : o.source = .leave) : sourceAccepted o s = leaveEnds s := by
  rw [sourceAccepted, source]

theorem sourceVoided_leave {o : Offer} {c : VoidClass} (source : o.source = .leave) :
    sourceVoided o c false s = if s.pendingLeave = some .soloVeto then exclude .soloVeto s else s := by
  simp [sourceVoided, source]

/-- The own LEAVE of a member at its close (R94, R66): what O18 says of it. -/
theorem ownLeaveAtClose {src : LeaveSource} (atVerdict : AtVerdict (received fl.frame none) s)
    (flight : s.round.inFlight = some fl) (source : fl.offer.source = .leave) (wanted : fl.discarded = false)
    (body : fl.frame.body = .leave) (life : s.life = .member) (pendingLeave : s.pendingLeave = some src)
    (noStale' : ∀ i : StationId, slots[i] ≠ .stale) :
    (src ≠ .soloVeto →
      (Unmarked slots →
        ∃ t, exec (.verdictWindowClose slots) s = .next t ∧ Left .left none s t ∧ t.counters = s.counters ∧
          t.round.pointer = some (fl.frame.sender + 1)) ∧
      ((∃ i : StationId, slots[i] = .veto) →
        exec (.verdictWindowClose slots) s =
          .next { s with
            counters := { s.counters with ownVoided := saturate s.counters.ownVoided 1 },
            round := roundOver { s.round with soloVetoes := 0 } })) ∧
    (src = .soloVeto → Unmarked slots ∨ (∃ i : StationId, slots[i] = .veto) →
      ∃ t, exec (.verdictWindowClose slots) s = .next t ∧
        Left .soloVeto (if autoRejoin s = true then some (2 * intervalMs (configInterval s)) else none) s t) := by
  have noStale := (someSlot_eq_false (slots := slots) .stale).2 noStale'
  have notStop (r : StopReason) : fl.frame.body ≠ .stop r := by simp [body]
  have acceptedClose (unmarked : Unmarked slots) : closeVerdictWindow slots s =
      endRound (handOn fl.frame true false slots (leaveEnds (counted fl.frame s))) := by
    rw [closeVerdictWindow_ownAccepted atVerdict flight wanted unmarked.clean noStale
      (verdictOf_unmarked unmarked (by simp [body])), sourceAccepted_leave source]
  have voidClose (veto : ∃ i : StationId, slots[i] = .veto) : closeVerdictWindow slots s =
      endRound (sourceVoided fl.offer .veto false (voidCounted fl.frame slots s)) := by
    rw [closeVerdictWindow_ownVoid atVerdict flight wanted noStale (verdictOf_veto veto), handOn_vetoed veto]
  refine ⟨fun notSolo => ⟨fun unmarked => ?_, fun veto => ?_⟩, fun solo verdict => ?_⟩
  · have command : s.pendingLeave ≠ some .soloVeto := by simp [pendingLeave, notSolo]
    rw [leaveEnds_member (s := counted fl.frame s) life, if_neg (show (counted fl.frame s).pendingLeave ≠ _ from command),
      handOn_excluded notStop rfl] at acceptedClose
    exact ⟨_, congrArg Host.Outcome.next (acceptedClose unmarked), exclude_left _, rfl, rfl⟩
  · have command : s.pendingLeave ≠ some .soloVeto := by simp [pendingLeave, notSolo]
    have notClean : clean slots = false := by simp [Machine.clean, (someSlot_iff _).2 veto]
    rw [sourceVoided_leave source, if_neg (show (voidCounted fl.frame slots s).pendingLeave ≠ _ from command)] at voidClose
    refine congrArg Host.Outcome.next ((voidClose veto).trans ?_)
    rw [voidCounted, afterCounts, notClean]
    rfl
  · have command : s.pendingLeave = some .soloVeto := by rw [pendingLeave, solo]
    obtain unmarked | veto := verdict
    · rw [leaveEnds_member (s := counted fl.frame s) life, if_pos (show (counted fl.frame s).pendingLeave = _ from command),
        handOn_excluded notStop rfl] at acceptedClose
      exact ⟨_, congrArg Host.Outcome.next (acceptedClose unmarked), exclude_soloVeto (counted fl.frame s)⟩
    · rw [sourceVoided_leave source, if_pos (show (voidCounted fl.frame slots s).pendingLeave = _ from command)] at voidClose
      exact ⟨_, congrArg Host.Outcome.next (voidClose veto), exclude_soloVeto (voidCounted fl.frame slots s)⟩

/-- Settles O18. -/
theorem leaveAndStopActByState : Obligations.LeaveAndStopActByState := by
  refine ⟨fun s collected => ⟨fun life => ?_, fun life => ?_⟩, fun s collected life => ⟨fun pending solo => ?_, fun notSolo =>
    ⟨fun pending isOpen abort => ?_, fun e pending abort => ?_, fun pending flight => ?_, ?_⟩⟩, ?_⟩
  · rw [exec_leave_taken collected, takeLeave_member life, leaveAsMember_eq]
    rfl
  · rw [exec_stop_taken collected, takeStop, inStates_of_mem (by simpa using life)]
    refine congrArg Host.Outcome.next ?_
    cases stop : s.pendingStop with
    | none => rfl
    | some r => exact congrArg (answered [0x00]) (by cases s; cases stop; rfl)
  · have stays : leaveWhileJoining s = s := (if_neg (by simp [pending])).trans (if_pos solo)
    rw [exec_leave_taken collected, takeLeave_joining life, stays]
    rfl
  · have aborts : leaveWhileJoining s = pendLeave .abort (pendAbort .left s) := by
      simp [leaveWhileJoining, pending, notSolo, abort, isOpen]
    rw [exec_leave_taken collected, takeLeave_joining life, aborts]
    exact congrArg (fun t => Host.Outcome.next (answered [0x00] t)) (if_neg notSolo)
  · have changes : leaveWhileJoining s = { s with join := { s.join with abort := some .left } } := by
      simp [leaveWhileJoining, pending, notSolo, abort]
    rw [exec_leave_taken collected, takeLeave_joining life, changes]
    rfl
  · have waits : leaveWhileJoining s = { s with join := { s.join with leaveAtEntryClose := true } } :=
      (if_pos pending).trans (if_pos flight)
    rw [exec_leave_taken collected, takeLeave_joining life, waits]
    rfl
  · intro atOnce
    have leaves : leaveWhileJoining s = exclude .left s := by
      obtain ⟨pending, flight⟩ | ⟨pending, isOpen, abort⟩ := atOnce
      · exact (if_pos pending).trans (if_neg (by simp [flight]))
      · simp [leaveWhileJoining, pending, notSolo, isOpen, abort]
    rw [exec_leave_taken collected, takeLeave_joining life, leaves]
    exact ⟨_, rfl, rfl, exclude_left s, rfl, rfl⟩
  · exact fun fl src slots s atVerdict flight source wanted body life pendingLeave noStale =>
      ownLeaveAtClose atVerdict flight source wanted body life pendingLeave noStale

end Sys2Proof.Machine
end

section
/-! The settlements of O31 and O34: an own CLAIM granted at its close, and the stations that exclude themselves. -/

namespace Sys2Proof.Machine

variable {s t u : State} {f : Frame} {fl : InFlight} {slots : VerdictSlots}

/-! ### An application that changes no roster state tells its events alone -/

/-- With nobody departed no NOTE is dropped (R151). -/
theorem dropGoneNotes_nil (s : State) : dropGoneNotes [] s = s := by
  have none (f : HostFrame) : noteTo [] f = false := by cases f <;> rfl
  simp only [dropGoneNotes, none, Bool.false_and, List.filter_false, Bool.not_false, List.filter_true, goneRecords]
  cases s.hostQueue.head? <;> rfl

theorem tellApplied_claim {a : Applied} {k : LockId} {m : Mode} {c : ClaimClass} {form : Form} {tk : TicketId}
    (body : f.body = .claim k m c form tk) (noChange : a.changes = []) (noEntry : a.entry = none) :
    tellApplied f a s = tellEvents a.events { s with replica := a.replica } := by
  have copyKept (t : State) : abandonCopy [] t = t := abandonCopy_untouched (by simp)
  rw [tellApplied, noChange, noEntry]
  simp only [departed, List.filter_nil, List.map_nil, dropGoneNotes_nil, answerEntry, copyKept, tellMonitor, rosterRecord,
    List.isEmpty_nil, if_true, evictSettled, withdrawDecline, body]

theorem tellEvent_granted {tk : TicketId} {k : LockId} {g : Byte} {kind : TicketKind}
    (ticket : s.tickets[tk] = some { kind := kind, place := .queued }) :
    tellEvent (.granted s.straps.id tk k g) s =
      { startLease tk s with
        tickets := put s.tickets tk (some { kind := kind, place := .recorded }), records := s.records ++ [.granted tk k g] } :=
  (if_pos rfl).trans (makeRecord_ticketed (s := startLease tk s) rfl ticket)

/-! ### The own CLAIM (R14, R141, R167) -/

theorem hostAccepted_of_not_note {head : HostFrame} {rest : List HostFrame} (queue : s.hostQueue = head :: rest)
    (notNote : ∀ d tp p k, head ≠ .note d tp p k) (nextNotNote : ∀ d tp p k, rest.head? ≠ some (.note d tp p k)) :
    hostAccepted s = popHead s := by
  have next : lookupHead (popHead s) = popHead s :=
    lookupHead_of_not_note (by rw [popHead_hostQueue, queue]; exact nextNotNote)
  unfold hostAccepted
  split
  · next d tp p k tail isNote =>
    rw [queue] at isNote
    exact absurd (List.cons.inj isNote).1 (notNote d tp p k)
  · exact next
  · next empty => rw [queue] at empty; cases empty

theorem grantedAtOnce_free {r : LockRecord} (m : Mode) (free : r.state = .free) (queue : r.queue = []) :
    grantedAtOnce r m = true := by
  simp [grantedAtOnce, free, queue]

theorem claimOutcome_free {x : StationId} {k : LockId} {m : Mode} {form : Form} {locks : Locks}
    (free : locks[k].state = .free) (queue : locks[k].queue = []) (holders : locks[k].holders = noIds) :
    claimOutcome x k m form locks = .granted := by
  rw [claimOutcome_of_absent (by rw [holders, has_noIds]) (by rw [queue]; simp), if_pos (grantedAtOnce_free m free queue)]

/-- A member that applies a CLAIM granted at once tells the grant alone. -/
theorem applyAtMember_claimGranted {k : LockId} {m : Mode} {c : ClaimClass} {form : Form} {tk : TicketId}
    (body : f.body = .claim k m c form tk) (full : s.replica.roster[f.sender] = .full)
    (outcome : claimOutcome f.sender k m form s.replica.locks = .granted)
    (good : AllGood (applicationReads (self s) f s.replica) s.ecc) :
    applyAtMember f s =
      tellEvent (.granted f.sender tk k (s.replica.locks[k].generation + 1))
        { s with replica := { s.replica with
          sequence := s.replica.sequence + 1, locks := put s.replica.locks k (grant f.sender m s.replica.locks[k]) } } := by
  rw [applyAtMember_allGood good (by simp [evictsSelf, body]), applyFrame_claim_granted body full outcome]
  exact tellApplied_claim body rfl rfl

/-- The state in which the own CLAIM is applied: counts, queue and roster monitor moved on (R61, R80, R167). -/
def claimHeard (f : Frame) (s : State) : State := hearSender f.sender (popHead (counted f s))

/-- The station after its own CLAIM of a free lock: holder, ticket, record and lease (R14, R141, R166). -/
def claimGranted (f : Frame) (k : LockId) (m : Mode) (tk : TicketId) (s : State) : State :=
  { startLease tk (claimHeard f s) with
    replica := { s.replica with
      sequence := s.replica.sequence + 1, locks := put s.replica.locks k (grant f.sender m s.replica.locks[k]) },
    tickets := put s.tickets tk (some { kind := .claim k, place := .recorded }),
    records := s.records ++ [.granted tk k (s.replica.locks[k].generation + 1)] }

theorem closeVerdictWindow_claimGranted {k : LockId} {m : Mode} {c : ClaimClass} {form : Form} {tk : TicketId}
    {bytes : List Byte} {rest : List HostFrame} (atVerdict : AtVerdict (received f none) s) (sender : f.sender = s.straps.id)
    (body : f.body = .claim k m c form tk)
    (flight : s.round.inFlight =
      some { offer := { source := .host tk, body := .claim k m c form tk }, frame := f, bytes := bytes, discarded := false })
    (life : s.life = .member) (tag : s.replica.tag = some f.tag) (full : s.replica.roster[f.sender] = .full)
    (unmarked : Unmarked slots) (queue : s.hostQueue = .claim k m c form tk :: rest)
    (nextNotNote : ∀ d tp p t, rest.head? ≠ some (.note d tp p t))
    (ticket : s.tickets[tk] = some { kind := .claim k, place := .queued })
    (outcome : claimOutcome f.sender k m form s.replica.locks = .granted)
    (good : AllGood (applicationReads s.straps.id f s.replica) s.ecc) :
    closeVerdictWindow slots s = endRound (claimGranted f k m tk s) := by
  have accepted : verdictOf f.body slots = .accepted := verdictOf_unmarked unmarked (by simp [body])
  have home : foreign f (popHead (counted f s)) = false := not_foreign_of_own_tag life tag
  have source : sourceAccepted { source := .host tk, body := .claim k m c form tk } (counted f s) = popHead (counted f s) :=
    hostAccepted_of_not_note (s := counted f s) queue (by simp) nextNotNote
  have takes : handOn f true false slots (popHead (counted f s)) = applyAtMember f (claimHeard f s) := by
    rw [handOn_member (s := popHead (counted f s)) (by simp [body]) life, closeAtMember_inStep home (.inl rfl) accepted]
    exact if_pos (by simp [body, isTable])
  have applies := applyAtMember_claimGranted (s := claimHeard f s) body full outcome good
  rw [closeVerdictWindow_ownAccepted atVerdict flight rfl unmarked.clean unmarked.noStale accepted, source, takes, applies,
    sender]
  refine congrArg endRound ((tellEvent_granted (s := { claimHeard f s with replica := _ }) ticket).trans ?_)
  rw [← sender]
  rfl

/-- Settles O31. -/
theorem ownClaimIsGrantedAtItsClose : Obligations.OwnClaimIsGrantedAtItsClose := by
  intro k m c form tk f bytes rest slots s atVerdict sender body flight life tag full unmarked queue nextNotNote ticket free
    empty holders good
  have fullSender : s.replica.roster[f.sender] = .full :=
    (congrArg (fun x : StationId => s.replica.roster[x]) sender).trans full
  have closes := closeVerdictWindow_claimGranted atVerdict sender body flight life tag fullSender unmarked queue nextNotNote
    ticket (claimOutcome_free free empty holders) good
  have record : (put s.replica.locks k (grant f.sender m s.replica.locks[k]))[k] =
      { state := lockStateOf m, holders := addTo noIds s.straps.id, queue := [],
        generation := s.replica.locks[k].generation + 1 } := by
    rw [getElem_put_same, grant_of_empty_queue empty, holders, sender]
  have pointer : f.sender + 1 = s.straps.id + 1 := congrArg (· + 1) sender
  refine ⟨_, congrArg Host.Outcome.next closes, congrArg LockRecord.holders record,
    (congrArg LockRecord.state record).trans (by cases m <;> rfl), congrArg LockRecord.generation record,
    congrArg LockRecord.queue record, fun j other => getElem_put_ne _ _ (Ne.symm other), rfl, rfl, rfl, rfl,
    congrArg List.tail queue, rfl, rfl, ?_, ?_, ?_,
    rfl, rfl, rfl, rfl, life⟩
  · exact (hearSender_beaconTimer f.sender (popHead (counted f s))).trans ((if_pos sender).trans
      (congrArg some (Nat.one_mul _)))
  · exact (hearSender_beaconDue f.sender (popHead (counted f s))).trans (if_pos sender)
  · rw [← pointer]
    rfl

/-! ### A void frame's return to its source (R67 to R71) -/

/-- `s` with what the return of a void frame to its source may write taken from `t`: the host side, leases, roster monitor, copy
and the frames-dropped counter. -/
def withReturned (t s : State) : State :=
  { withHostSide t s with
    leases := t.leases, monitor := t.monitor, copy := t.copy, copyRetry := t.copyRetry,
    counters := { s.counters with framesDropped := t.counters.framesDropped } }

/-- `t` differs from `s` at most in what the return of a void frame to its source may write. -/
def Returned (s t : State) : Prop := t = withReturned t s

theorem Returned.eq (h : Returned s t) : t = withReturned t s := h

theorem Returned.refl (s : State) : Returned s s := rfl

theorem Returned.trans (first : Returned s t) (second : Returned t u) : Returned s u := by
  rw [second.eq, first.eq]
  rfl

theorem HostSide.returned (h : HostSide s t) : Returned s t :=
  h.eq.trans (show withReturned t s = withHostSide t s from congrArg (withReturned · s) h.eq).symm

theorem Returned.keeps {α : Type} (h : Returned s t) (field : State → α) (kept : field (withReturned t s) = field s) :
    field t = field s :=
  (congrArg field h.eq).trans kept

theorem countDropped_returned (s : State) : Returned s (countDropped s) := rfl

theorem cancelForDrop_returned (head : HostFrame) (s : State) : Returned s (cancelForDrop head s) := by
  cases head <;> rfl

theorem dropHead_returned (head : HostFrame) (reason : Undelivered) (good : s.ecc.roster = .good) :
    Returned s (dropHead head reason s) := by
  have dropped : Returned s (makeRecord (limitRecord head reason) (cancelForDrop head (popHead (countDropped s)))) :=
    (countDropped_returned s).trans ((popHead_hostSide _).returned.trans
      ((cancelForDrop_returned head _).trans (makeRecord_hostSide _ _).returned))
  exact dropped.trans (lookupHead_hostSide _ ((dropped.keeps State.ecc rfl) ▸ good)).returned

theorem hostRetried_returned (head : HostFrame) (c : VoidClass) (good : s.ecc.roster = .good) :
    Returned s (hostRetried head c s) := by
  have attempt : Returned s (hostAttempt head c s) := by
    unfold hostAttempt
    split
    · exact dropHead_returned head _ good
    · rfl
  have busy : Returned s (hostBusy head s) := by
    unfold hostBusy
    split
    · exact dropHead_returned head _ good
    · rfl
  cases c with
  | veto => exact attempt
  | noAnswer => exact attempt
  | busy => exact busy
  | stale => exact .refl s

theorem noteVoided_returned (head : HostFrame) (d : StationId) (k : TicketId) (c : VoidClass) (good : s.ecc.roster = .good) :
    Returned s (noteVoided head d k c s) := by
  have allGood : AllGood [.roster] s.ecc := by simp [AllGood, conditionOf, good]
  simp only [noteVoided, readable_allGood allGood, afterReads_allGood allGood, Bool.not_true, Bool.false_eq_true, if_false]
  split
  · exact hostRetried_returned head c good
  · have gone : HostSide s (makeRecord (.undelivered k d .gone) (popHead s)) :=
      (popHead_hostSide s).trans (makeRecord_hostSide _ _)
    exact (gone.trans (lookupHead_hostSide _ (gone.ecc ▸ good))).returned

theorem hostVoided_returned (c : VoidClass) (good : s.ecc.roster = .good) : Returned s (hostVoided c s) := by
  unfold hostVoided
  split
  · exact noteVoided_returned _ _ _ c good
  · exact hostRetried_returned _ c good
  · exact .refl s

theorem copyVoided_returned (c : VoidClass) (s : State) : Returned s (copyVoided c s) := by
  have dropped : Returned s (dropCopyFrame s) := by
    unfold dropCopyFrame
    split
    · next copy =>
      split
      · rfl
      · simp only [advanceCopy, copy]
        rfl
    · rfl
  unfold copyVoided
  split
  · split
    · exact dropped
    · rfl
  · rfl

/-- Where a STALE mark decides the close a LEAVE and an ENTRY do not end at it, and every other source takes its frame back. -/
theorem sourceVoided_returned (o : Offer) (c : VoidClass) (good : s.ecc.roster = .good) :
    Returned s (sourceVoided o c true s) := by
  unfold sourceVoided
  cases o.source with
  | host k => exact hostVoided_returned c good
  | copy => exact copyVoided_returned c s
  | leave => exact Returned.refl s
  | entry => exact Returned.refl s
  | _ => exact Returned.refl s

theorem verdictOf_void_of_stale {body : Body} (stale : someSlot slots .stale = true) :
    ∃ c, verdictOf body slots = .void c := by
  cases veto : someSlot slots .veto with
  | true => exact ⟨.veto, verdictOf_veto ((someSlot_iff _).1 veto)⟩
  | false => exact ⟨.stale, verdictOf_stale veto stale⟩

theorem passOutcome_stale_returned (stale : someSlot slots .stale = true) (good : s.ecc.roster = .good) :
    Returned s (passOutcome fl slots s) := by
  obtain ⟨c, void⟩ := verdictOf_void_of_stale (body := fl.frame.body) stale
  simp only [passOutcome, void, stale]
  split
  · exact .refl s
  · exact sourceVoided_returned fl.offer c good

/-! ### Stations that exclude themselves (R43 to R45, R92) -/

theorem staleOnOwn_excludes (stale : someSlot slots .stale = true) (life : s.life = .member ∨ Joining s) :
    staleOnOwn slots s = exclude .stale (recordFault .stale (ownCount s) (some (self s)) s) :=
  if_pos (by rcases life with life | life | life <;> simp [stale, inGroup, life])

/-- A void frame is handed on to nobody by a station that is EXCLUDED. -/
theorem handOn_excluded_void {own taken : Bool} {c : VoidClass} (void : verdictOf f.body slots = .void c)
    (life : s.life = .excluded) : handOn f own taken slots s = s := by
  unfold handOn
  split
  · exact if_neg (by simp [void])
  · rw [life]

/-- A sender that observes STALE on its own frame excludes itself at the close. -/
theorem closeVerdictWindow_stale (atVerdict : AtVerdict (received fl.frame none) s) (flight : s.round.inFlight = some fl)
    (stale : someSlot slots .stale = true) (life : s.life = .member ∨ Joining s) (good : s.ecc.roster = .good) :
    ∃ u, Returned (voidCounted fl.frame slots s) u ∧
      closeVerdictWindow slots s = endRound (exclude .stale (recordFault .stale (ownCount u) (some (self u)) u)) := by
  obtain ⟨c, void⟩ := verdictOf_void_of_stale (body := fl.frame.body) stale
  have returned : Returned (voidCounted fl.frame slots s) (passOutcome fl slots (voidCounted fl.frame slots s)) :=
    passOutcome_stale_returned stale good
  have lifeKept : (passOutcome fl slots (voidCounted fl.frame slots s)).life = s.life := returned.keeps State.life rfl
  have excludes := staleOnOwn_excludes (s := passOutcome fl slots (voidCounted fl.frame slots s)) stale
    (by rw [Joining, lifeKept]; exact life)
  refine ⟨_, returned, ?_⟩
  rw [closeVerdictWindow_own atVerdict flight, void]
  exact congrArg endRound ((congrArg (handOn fl.frame true false slots) excludes).trans (handOn_excluded_void void rfl))

/-- A clean close of an own-group frame ahead of the count: the member has missed frames. -/
theorem closeAtMember_ahead {taken : Bool} (home : foreign f s = false) (notEntry : isEntry f.body = false)
    (ahead : standing f.sequence s.replica.sequence = .ahead) (noVeto : clean slots = true) :
    closeAtMember f false taken slots s = exclude .missed (recordFault .missed (ownCount s) (some f.sender) s) := by
  rw [closeAtMember, if_neg (by simp [home])]
  simp [notEntry, ahead, noVeto]

theorem closeVerdictWindow_missed (atVerdict : AtVerdict (received f none) s) (flight : s.round.inFlight = none)
    (life : s.life = .member) (tag : s.replica.tag = some f.tag) (kind : comparedKind f.body = true)
    (ahead : standing f.sequence s.replica.sequence = .ahead) (noVeto : clean slots = true) :
    closeVerdictWindow slots s =
      endRound (exclude .missed (recordFault .missed s.replica.sequence (some f.sender) (counted f s))) := by
  have home : foreign f (counted f s) = false := not_foreign_of_own_tag life tag
  rw [closeVerdictWindow_clean atVerdict flight (by simp) noVeto,
    handOn_member (s := counted f s) (not_stop_of_compared kind) life,
    closeAtMember_ahead home (not_entry_of_compared kind) ahead noVeto, ownCount_member (s := counted f s) life]
  rfl

/-- A member that a FULL station evicts excludes itself, whatever the lock table's words hold (R92). -/
theorem applyAtMember_evicted (body : f.body = .evict s.straps.id) (full : s.replica.roster[f.sender] = .full)
    (good : s.ecc.roster = .good) :
    applyAtMember f s = exclude .evicted (recordFault .evicted (ownCount s) (some f.sender) s) := by
  have reads : applicationReads (self s) f s.replica = [.roster] := by simp [applicationReads, body, self]
  have allGood : AllGood (applicationReads (self s) f s.replica) s.ecc := by
    rw [reads]
    simp [AllGood, conditionOf, good]
  have evicts : evictsSelf f s = true := by simpa [evictsSelf, body, self] using full
  simp [applyAtMember, afterReads_allGood allGood, readable_allGood allGood, evicts]

/-- Settles O34. -/
theorem staleMissedAndEvictedStationsExcludeThemselves : Obligations.StaleMissedAndEvictedStationsExcludeThemselves := by
  refine ⟨fun fl slots s atVerdict flight stale life good => ?_,
    fun f slots s atVerdict flight life tag kind low high noVeto => ?_,
    fun f slots s atVerdict flight life tag body inStep full unmarked good => ?_⟩
  · obtain ⟨u, returned, closes⟩ := closeVerdictWindow_stale atVerdict flight ((someSlot_iff _).2 stale) life good
    rw [recordFault_eq] at closes
    have inbound : u.inbound = s.inbound := returned.keeps State.inbound rfl
    have fault : u.fault.getD { kind := .stale, sequence := ownCount u, sender := some (self u) } =
        s.fault.getD { kind := .stale, sequence := ownCount s, sender := some s.straps.id } := by
      rw [returned.keeps State.fault rfl, returned.keeps ownCount rfl, returned.keeps self rfl]
      rfl
    exact ⟨_, congrArg Host.Outcome.next closes, rfl, rfl, rfl, rfl, rfl,
      returned.keeps (fun v => v.counters.ownVoided) rfl, congrArg some fault,
      (exclude_records_eq .stale u).trans (by rw [inbound]), returned.keeps State.config rfl, inbound,
      returned.keeps State.pendingStop rfl, returned.keeps State.straps rfl⟩
  · have closes := closeVerdictWindow_missed atVerdict flight life tag kind (standing_ahead low high) (clean_iff.2 noVeto)
    rw [recordFault_eq] at closes
    exact ⟨_, congrArg Host.Outcome.next closes, rfl, rfl, rfl, rfl, rfl, rfl, rfl, rfl, rfl, rfl⟩
  · have closes := closeVerdictWindow_applies atVerdict flight life tag (by rw [body]; rfl) (.inr inStep) unmarked
    rw [applyAtMember_evicted (s := hearSender f.sender (counted f s)) body full good, recordFault_eq,
      ownCount_member (s := hearSender f.sender (counted f s)) life] at closes
    exact ⟨_, congrArg Host.Outcome.next closes, rfl, rfl, rfl, rfl, rfl, rfl, rfl, exclude_records_eq .evicted s,
      exclude_rejoin_permitted (r := .evicted) rfl s, rfl, rfl, rfl, rfl, rfl, rfl⟩

end Sys2Proof.Machine
end

section
/-! The settlements of O36, O37, O38 and O46: an accepted STOP, the joiner and the listener at the close. -/

namespace Sys2Proof.Machine

variable {s t : State} {f : Frame} {fl : InFlight} {slots : VerdictSlots}

/-! ### STOP (R177, R178) -/

/-- The station is HALTED by an accepted STOP, its pointer this one: frozen replica, and everything local cleared. -/
def HaltedBy (reason : StopReason) (pointer : Option StationId) (s t : State) : Prop :=
  t.life = .halted ∧ t.haltReason = some reason ∧
  t.replica = s.replica ∧ t.ecc = s.ecc ∧ t.tickets = Vector.replicate 16 none ∧ t.hostQueue = [] ∧
  t.leases = [] ∧ t.expireSet = noLocks ∧ t.monitor = .stopped ∧ t.listening = .stopped ∧ t.join = .none ∧
  t.declines = [] ∧ t.copy = none ∧ t.pendingStop = none ∧ t.pendingLeave = none ∧ t.rejoin = none ∧
  t.records = .stateChanged (.halted reason) :: (if s.inbound = [] then [] else [.noteArrived]) ∧
  t.config = s.config ∧ t.foundingCount = s.foundingCount ∧ t.inbound = s.inbound ∧ t.fault = s.fault ∧
  t.counters = s.counters ∧ t.round.pointer = pointer ∧ t.round.mismatches = s.round.mismatches

theorem enterHalted_haltedBy (reason : StopReason) (s : State) :
    HaltedBy reason s.round.pointer s (enterHalted reason none s) :=
  ⟨rfl, rfl, rfl, rfl, rfl, rfl, rfl, rfl, rfl, rfl, rfl, rfl, rfl, rfl, rfl, rfl, enterHalted_records_eq reason none s, rfl,
    rfl, rfl, rfl, rfl, rfl, rfl⟩

theorem acceptStop_halts {reason : StopReason} (off : s.life ≠ .off) (halted : s.life ≠ .halted) :
    acceptStop reason s = enterHalted reason none s :=
  if_neg (by simp [off, halted])

theorem acceptStop_halted {reason : StopReason} (halted : s.life = .halted) : acceptStop reason s = s := if_pos (.inr halted)

/-- The state at the handing on of a clean frame received in HALTED or not. -/
theorem afterCounts_cleanIn {halted : Bool} (noVeto : clean slots = true) :
    afterCounts halted f slots s =
      { s with round := { s.round with
        pointer := some (f.sender + 1), soloVetoes := if halted then s.round.soloVetoes else 0, inFlight := none } } := by
  simp [afterCounts, noVeto]

theorem sourceAccepted_stop {o : Offer} (source : o.source = .stop) : sourceAccepted o s = { s with pendingStop := none } := by
  rw [sourceAccepted, source]

/-- A STOP is accepted by every window that is unmarked. -/
theorem verdictOf_stop {reason : StopReason} (unmarked : Unmarked slots) (body : f.body = .stop reason) :
    verdictOf f.body slots = .accepted :=
  verdictOf_unmarked unmarked (by simp [body])

/-- What a STOP leaves of the station's own STOP that was in flight: nothing pending, if its outcome is wanted. -/
theorem passOutcome_stop {reason : StopReason} (unmarked : Unmarked slots) (body : fl.frame.body = .stop reason)
    (source : fl.offer.source = .stop) :
    passOutcome fl slots s = if fl.discarded then s else { s with pendingStop := none } := by
  cases discarded : fl.discarded with
  | true => exact passOutcome_discarded discarded
  | false => exact (passOutcome_accepted discarded (verdictOf_stop unmarked body)).trans (sourceAccepted_stop source)

theorem countIfVoid_accepted (s : State) : countIfVoid .accepted s = s := if_pos rfl

/-- The round's counts at the handing on: this pointer and this solo-veto count, and nothing in flight. -/
def withCounts (pointer : Option StationId) (soloVetoes : Nat) (s : State) : State :=
  { s with round := { s.round with pointer := pointer, soloVetoes := soloVetoes, inFlight := none } }

section Stop

variable {reason : StopReason} {pointer : Option StationId} {n : Nat}

/-- The end of a close at which a STOP has been accepted by a station that is not HALTED yet. -/
theorem halts_of_close (halts : closeVerdictWindow slots s = endRound (acceptStop reason (withCounts pointer n s)) ∨
      closeVerdictWindow slots s = endRound (acceptStop reason { withCounts pointer n s with pendingStop := none }))
    (off : s.life ≠ .off) (halted : s.life ≠ .halted) :
    ∃ t, exec (.verdictWindowClose slots) s = .next t ∧ HaltedBy reason pointer s t := by
  obtain closes | closes := halts
  · exact ⟨_, congrArg Host.Outcome.next (closes.trans (congrArg endRound (acceptStop_halts off halted))),
      enterHalted_haltedBy reason (withCounts pointer n s)⟩
  · exact ⟨_, congrArg Host.Outcome.next (closes.trans (congrArg endRound (acceptStop_halts off halted))),
      enterHalted_haltedBy reason { withCounts pointer n s with pendingStop := none }⟩

/-- An accepted STOP of another station at its close. -/
theorem closeVerdictWindow_stop {before : Bool} (unmarked : Unmarked slots) (atVerdict : AtVerdict (receivedIn before f none) s)
    (flight : s.round.inFlight = none) (body : f.body = .stop reason) :
    closeVerdictWindow slots s =
      endRound (acceptStop reason (withCounts (some (f.sender + 1)) (if before then s.round.soloVetoes else 0) s)) := by
  rw [closeVerdictWindow_observer atVerdict flight (by simp), handOn_stop body (verdictOf_stop unmarked body),
    afterCounts_cleanIn unmarked.clean]
  rfl

/-- The station's own STOP at its close, read back whole. -/
theorem closeVerdictWindow_ownStop {before : Bool} (unmarked : Unmarked slots)
    (atVerdict : AtVerdict (receivedIn before fl.frame none) s) (flight : s.round.inFlight = some fl)
    (body : fl.frame.body = .stop reason) (source : fl.offer.source = .stop) :
    let counts := withCounts (some (fl.frame.sender + 1)) (if before then s.round.soloVetoes else 0) s
    closeVerdictWindow slots s =
      endRound (acceptStop reason (if fl.discarded then counts else { counts with pendingStop := none })) := by
  have accepted := verdictOf_stop unmarked body
  rw [closeVerdictWindow_own atVerdict flight, handOn_stop body accepted, accepted, countIfVoid_accepted,
    passOutcome_stop unmarked body source, staleOnOwn_of_none unmarked.noStale, afterCounts_cleanIn unmarked.clean]
  rfl

/-- The station's own STOP at its close, its readback not matched. -/
theorem closeVerdictWindow_misreadStop {before : Bool} {line : Option Frame} (unmarked : Unmarked slots)
    (atVerdict : AtVerdict (misreadIn before line none false) s) (flight : s.round.inFlight = some fl)
    (body : fl.frame.body = .stop reason) (source : fl.offer.source = .stop) :
    let counts := withCounts none s.round.soloVetoes s
    closeVerdictWindow slots s =
      endRound (acceptStop reason (if fl.discarded then counts else { counts with pendingStop := none })) := by
  have accepted := verdictOf_stop unmarked body
  rw [closeVerdictWindow_misread atVerdict flight, handOn_stop body accepted, accepted, countIfVoid_accepted,
    passOutcome_stop unmarked body source, staleOnOwn_of_none unmarked.noStale]
  rfl

/-- Whether or not the outcome of its own STOP is wanted, the station halts. -/
theorem halts_of_ownClose (closes : closeVerdictWindow slots s = endRound (acceptStop reason
      (if fl.discarded then withCounts pointer n s else { withCounts pointer n s with pendingStop := none })))
    (off : s.life ≠ .off) (halted : s.life ≠ .halted) :
    ∃ t, exec (.verdictWindowClose slots) s = .next t ∧ HaltedBy reason pointer s t := by
  cases discarded : fl.discarded with
  | true => exact halts_of_close (.inl (by rw [closes, discarded, if_pos rfl])) off halted
  | false => exact halts_of_close (.inr (by rw [closes, discarded, if_neg Bool.false_ne_true])) off halted

/-- In HALTED the station's own STOP leaves its source, and only the round moves on. -/
theorem halted_of_ownClose (closes : closeVerdictWindow slots s = endRound (acceptStop reason
      (if fl.discarded then withCounts pointer n s else { withCounts pointer n s with pendingStop := none })))
    (halted : s.life = .halted) (wanted : fl.discarded = false) :
    exec (.verdictWindowClose slots) s =
      .next { s with pendingStop := none, round := roundOver { s.round with pointer := pointer, soloVetoes := n } } := by
  rw [wanted, if_neg Bool.false_ne_true] at closes
  exact congrArg Host.Outcome.next (closes.trans (congrArg endRound
    (acceptStop_halted (s := { withCounts pointer n s with pendingStop := none }) halted)))

end Stop

/-- Settles O36. -/
theorem acceptedStopHalts : Obligations.AcceptedStopHalts := by
  intro reason slots s unmarked
  refine ⟨fun before f atVerdict body => ⟨fun off halted flight => ?_, fun halted => ⟨fun flight => ?_,
    fun fl flight frame source wanted => ?_⟩⟩, fun before line fl atVerdict flight body source =>
    ⟨fun off halted => ?_, fun halted wanted => ?_⟩⟩
  · obtain flight | ⟨fl, flight, rfl, source⟩ := flight
    · exact halts_of_close (.inl (closeVerdictWindow_stop unmarked atVerdict flight body)) off halted
    · exact halts_of_ownClose (closeVerdictWindow_ownStop unmarked atVerdict flight body source) off halted
  · exact congrArg Host.Outcome.next ((closeVerdictWindow_stop unmarked atVerdict flight body).trans
      (congrArg endRound (acceptStop_halted (s := withCounts _ _ s) halted)))
  · obtain rfl := frame
    exact halted_of_ownClose (closeVerdictWindow_ownStop unmarked atVerdict flight body source) halted wanted
  · exact halts_of_ownClose (closeVerdictWindow_misreadStop unmarked atVerdict flight body source) off halted
  · exact halted_of_ownClose (closeVerdictWindow_misreadStop unmarked atVerdict flight body source) halted wanted

/-! ### The joiner (R112 to R117) -/

/-- An accepted frame of the target group that another station sent is dealt with by the joiner. -/
theorem closeVerdictWindow_joiner (atVerdict : AtVerdict (received f none) s) (flight : s.round.inFlight = none)
    (life : Joining s) (target : s.join.target = some f.tag) (notStop : ∀ r, f.body ≠ .stop r)
    (notNote : ∀ d tp p, f.body ≠ .note d tp p) (unmarked : Unmarked slots) :
    closeVerdictWindow slots s = endRound (joinerTakes f (counted f s)) := by
  have home : foreign f (counted f s) = false := not_foreign_of_target_tag life target
  have takes : closeAtJoiner f false slots (counted f s) = joinerTakes f (counted f s) := by
    simp [closeAtJoiner, home, verdictOf_unmarked unmarked notNote]
  rw [closeVerdictWindow_clean atVerdict flight (by simp) unmarked.clean, handOn_joiner (s := counted f s) notStop life, takes]

theorem closeAtJoiner_own (home : foreign f s = false) : closeAtJoiner f true slots s = s := by
  simp [closeAtJoiner, home]

theorem joinerTakes_copyRoster {c : RosterCopy} (body : f.body = .copyRoster (self s) c) :
    joinerTakes f s = takeRosterCopy f c (track f s) := by
  have stays : endsJoin f s = false := by simp [endsJoin, body]
  simp [joinerTakes, stays, body]

theorem joinerTakes_copyLock {k : LockId} {r : LockRecord} (body : f.body = .copyLock k r) :
    joinerTakes f s = takeLockCopy f k r (track f s) := by
  have stays : endsJoin f s = false := by simp [endsJoin, body]
  simp [joinerTakes, stays, body]

theorem joinerTakes_admission {copies : Nat} (body : f.body = .admission (self s) copies) :
    joinerTakes f s = admitSelf f copies s := by
  have stays : endsJoin f s = false := by simp [endsJoin, body]
  simp [joinerTakes, stays, body]

/-- Settles O37. -/
theorem joinerOpensItsJoinAndReceivesTheCopy : Obligations.JoinerOpensItsJoinAndReceivesTheCopy := by
  refine ⟨fun i fl slots s atVerdict flight offer wanted body life target stays unmarked => ?_,
    fun f slots s atVerdict flight target abort unmarked => ⟨fun copy body life isOpen => ?_,
      fun k record copy body life source rosterCopy => ?_⟩⟩
  · have accepted : verdictOf fl.frame.body slots = .accepted := verdictOf_unmarked unmarked (by simp [body])
    have opens : entryAccepted (counted fl.frame s) = _ := if_neg (by simp [counted, stays])
    have home : foreign fl.frame (entryAccepted (counted fl.frame s)) = false := by
      rw [opens]
      exact not_foreign_of_target_tag (.inl life) target
    have life' : Joining (entryAccepted (counted fl.frame s)) := by
      rw [opens]
      exact .inl life
    have source : sourceAccepted fl.offer (counted fl.frame s) = entryAccepted (counted fl.frame s) := by rw [offer]; rfl
    have closes := closeVerdictWindow_ownAccepted atVerdict flight wanted unmarked.clean unmarked.noStale accepted
    rw [source, handOn_joiner (by simp [body]) life', closeAtJoiner_own home, opens] at closes
    exact congrArg Host.Outcome.next closes
  · have closes := closeVerdictWindow_joiner atVerdict flight (.inl life) target (by simp [body]) (by simp [body]) unmarked
    rw [joinerTakes_copyRoster (s := counted f s) body] at closes
    exact congrArg Host.Outcome.next (closes.trans (congrArg endRound (if_pos ⟨life, isOpen, abort⟩)))
  · have closes := closeVerdictWindow_joiner atVerdict flight (.inr life) target (by simp [body]) (by simp [body]) unmarked
    have tracked : trackedAfter f (counted f s) = some (copy.cut + s.join.catchUpCount) := by
      simp [trackedAfter, counted, rosterCopy]
    rw [joinerTakes_copyLock (s := counted f s) body, track, tracked] at closes
    exact congrArg Host.Outcome.next (closes.trans (congrArg endRound (if_pos ⟨life, source, abort⟩)))

end Sys2Proof.Machine
end

section
/-! The settlements of O38 and O46: the listener, and the joiner's admission. -/

namespace Sys2Proof.Machine

variable {s t : State} {f : Frame} {slots : VerdictSlots}

/-! ### The listener (R97, R98) -/

/-- The candidate after an accepted frame other than ENTRY: this group's, unless the present one ranks higher. -/
def followed (f : Frame) : Option Candidate → Candidate
  | some c => if f.tag = c.tag ∨ ranksHigher f.tag c.tag = true then { tag := f.tag, tracked := candidateCount f } else c
  | none => { tag := f.tag, tracked := candidateCount f }

theorem candidateAfter_eq (notEntry : isEntry f.body = false) (c : Option Candidate) :
    candidateAfter f c = some (followed f c) := by
  cases c with
  | none => simp [candidateAfter, notEntry, followed]
  | some d =>
    by_cases follows : f.tag = d.tag ∨ ranksHigher f.tag d.tag = true <;>
      simp [candidateAfter, notEntry, followed, follows]

theorem candidateAfter_entry_same {d : Candidate} (entry : isEntry f.body = true) (same : d.tag = f.tag) :
    candidateAfter f (some d) = some { d with tracked := d.tracked + 1 } := by
  simp [candidateAfter, entry, same]

theorem candidateAfter_entry_other {c : Option Candidate} (entry : isEntry f.body = true)
    (other : ∀ d, c = some d → d.tag ≠ f.tag) :
    candidateAfter f c = c := by
  cases c with
  | none => simp [candidateAfter, entry]
  | some d => simp [candidateAfter, entry, Ne.symm (other d rfl)]

/-- A candidate is targeted where the backoff timer is not running, and none is where it runs. -/
theorem targetCandidate_now {c : Candidate} (candidate : s.listening.candidate = some c) (backoff : s.listening.backoff = none) :
    targetCandidate s = target c s := by
  rw [targetCandidate, candidate]
  exact if_neg (by simp [backoff])

theorem targetCandidate_none (candidate : s.listening.candidate = none) : targetCandidate s = s := by
  rw [targetCandidate, candidate]

theorem targetCandidate_waits (backoff : s.listening.backoff ≠ none) : targetCandidate s = s := by
  unfold targetCandidate
  split
  · exact if_pos (Option.isSome_iff_ne_none.2 backoff)
  · rfl

theorem closeAtListener_void (void : verdictOf f.body slots ≠ .accepted) (noVeto : clean slots = true)
    (notEntry : isEntry f.body = false) :
    closeAtListener f slots s = { s with listening := { s.listening with quiet := configBeats 4 s } } := by
  simp [closeAtListener, void, noVeto, notEntry]

/-- The listener with its quiet window restarted, its candidate following the frame. -/
def following (f : Frame) (s : State) : State :=
  { s with listening :=
    { s.listening with quiet := configBeats 4 s, candidate := some (followed f s.listening.candidate) } }

theorem closeAtListener_accepted (accepted : verdictOf f.body slots = .accepted) (noVeto : clean slots = true)
    (notEntry : isEntry f.body = false) :
    closeAtListener f slots s = targetCandidate (following f s) := by
  simp [closeAtListener, accepted, noVeto, notEntry, candidateAfter_eq, following]

theorem closeAtListener_entry (accepted : verdictOf f.body slots = .accepted) (entry : isEntry f.body = true)
    (backoff : s.listening.backoff ≠ none) :
    closeAtListener f slots s =
      { s with listening := { s.listening with candidate := candidateAfter f s.listening.candidate } } := by
  simp only [closeAtListener, accepted, entry, Bool.not_true, Bool.false_eq_true, and_false, if_false, if_true]
  exact targetCandidate_waits backoff

/-- The close of a clean frame at a listener. -/
theorem closeVerdictWindow_listener (atVerdict : AtVerdict (received f none) s) (flight : s.round.inFlight = none)
    (life : s.life = .listening) (notStop : ∀ r, f.body ≠ .stop r) (noVeto : clean slots = true) :
    closeVerdictWindow slots s = endRound (closeAtListener f slots (counted f s)) := by
  rw [closeVerdictWindow_clean atVerdict flight (by simp) noVeto, handOn_listener (s := counted f s) notStop life]

/-- Settles O46. -/
theorem listenerFollowsAndTargetsItsCandidate : Obligations.ListenerFollowsAndTargetsItsCandidate := by
  refine ⟨fun ms s life backoff => ⟨fun c candidate => ?_, fun none => ?_⟩,
    fun f slots s atVerdict flight life => ⟨fun kind noVeto => ⟨fun void => ?_, fun accepted => ⟨fun backoff => ?_,
      fun backoff => ?_⟩⟩, fun entry unmarked backoff => ?_⟩⟩
  · exact congrArg Host.Outcome.next ((if_pos ⟨life, by simp [backoff]⟩).trans
      (targetCandidate_now (s := { s with listening := { s.listening with backoff := none } }) candidate rfl))
  · exact congrArg Host.Outcome.next ((if_pos ⟨life, by simp [backoff]⟩).trans
      (targetCandidate_none (s := { s with listening := { s.listening with backoff := .none } }) none))
  · exact congrArg Host.Outcome.next ((closeVerdictWindow_listener atVerdict flight life (not_stop_of_compared kind)
      (clean_iff.2 noVeto)).trans (congrArg endRound (closeAtListener_void (s := counted f s) void (clean_iff.2 noVeto)
        (not_entry_of_compared kind))))
  · have closes := closeVerdictWindow_listener atVerdict flight life (not_stop_of_compared kind) (clean_iff.2 noVeto)
    rw [closeAtListener_accepted accepted (clean_iff.2 noVeto) (not_entry_of_compared kind),
      targetCandidate_now (s := following f (counted f s)) rfl backoff] at closes
    exact congrArg Host.Outcome.next closes
  · have closes := closeVerdictWindow_listener atVerdict flight life (not_stop_of_compared kind) (clean_iff.2 noVeto)
    rw [closeAtListener_accepted accepted (clean_iff.2 noVeto) (not_entry_of_compared kind),
      targetCandidate_waits (s := following f (counted f s)) backoff] at closes
    exact congrArg Host.Outcome.next closes
  · have notStop (r : StopReason) : f.body ≠ .stop r := fun body => by simp [body, isEntry] at entry
    have notNote (d : StationId) (tp : Fin 16) (p : List Byte) : f.body ≠ .note d tp p := fun body => by
      simp [body, isEntry] at entry
    have closes := closeVerdictWindow_listener atVerdict flight life notStop unmarked.clean
    rw [closeAtListener_entry (s := counted f s) (verdictOf_unmarked unmarked notNote) entry backoff] at closes
    refine ⟨fun c candidate same => congrArg Host.Outcome.next (closes.trans ?_),
      fun other => congrArg Host.Outcome.next (closes.trans ?_)⟩
    · have after : candidateAfter f (counted f s).listening.candidate = _ :=
        (congrArg (candidateAfter f) candidate).trans (candidateAfter_entry_same entry same)
      rw [after]
      rfl
    · have after : candidateAfter f (counted f s).listening.candidate = s.listening.candidate :=
        candidateAfter_entry_other entry other
      rw [after]
      rfl

/-! ### Admission (R116, R117, R182) -/

theorem admitSelf_installs {n : Nat} {copy : RosterCopy} (abort : s.join.abort = none) (life : s.life = .copying)
    (rosterCopy : s.join.rosterCopy = some copy) (locks : locksRecorded s = n)
    (sequence : copy.cut + s.join.catchUpCount = f.sequence) : admitSelf f n s = install f copy s := by
  have checks : admitChecks f n s = true := by simp [admitChecks, life, locks, rosterCopy, sequence]
  simp [admitSelf, abort, checks, rosterCopy]

/-- The close of an ADMIT of this station whose checks pass. -/
theorem closeVerdictWindow_installs {n : Nat} {copy : RosterCopy} (atVerdict : AtVerdict (received f none) s)
    (flight : s.round.inFlight = none) (body : f.body = .admission s.straps.id n) (target : s.join.target = some f.tag)
    (life : s.life = .copying) (abort : s.join.abort = none) (rosterCopy : s.join.rosterCopy = some copy)
    (locks : locksRecorded s = n) (sequence : copy.cut + s.join.catchUpCount = f.sequence) (unmarked : Unmarked slots) :
    closeVerdictWindow slots s = endRound (install f copy (counted f s)) := by
  rw [closeVerdictWindow_joiner atVerdict flight (.inr life) target (by simp [body]) (by simp [body]) unmarked,
    joinerTakes_admission (s := counted f s) body,
    admitSelf_installs (s := counted f s) abort life rosterCopy locks sequence]

theorem install_correctable {w : StoreWord} (copy : RosterCopy) (h : OneCorrectable w (installReads s) s.ecc) :
    install f copy s = install f copy (corrected w s) := by
  have good : AllGood (installReads (corrected w s)) (corrected w s).ecc := h.allGood
  rw [install_readable f copy good]
  simp only [install, h.readable, h.afterReads, if_true]
  rfl

/-- The silence timers at admission: one for each other FULL ID (R79). -/
theorem monitorAtAdmission_silence (id x : StationId) (ms : Nat) (roster : Roster) :
    (monitorAtAdmission id ms roster).silence[x] ≠ .none ↔ roster[x] = .full ∧ x ≠ id := by
  by_cases full : roster[x.val] = .full ∧ x ≠ id <;> simp [monitorAtAdmission, full]

theorem storageFault_join (sender : Option StationId) (s : State) : (storageFault sender s).join = .none := by
  cases stop : stopOnFault s with
  | false => rw [storageFault_excludes sender stop]; rfl
  | true => rw [storageFault_halts sender stop]; rfl

/-- What an abandoned install leaves: the fault action over a cleared replica, with the tracked count. -/
theorem abandonInstall_leaves (sender : Option StationId) (life : s.life = .copying) :
    let t := abandonInstall sender s
    t.join = .none ∧ t.counters = s.counters ∧ t.config = s.config ∧ t.inbound = s.inbound ∧
    t.fault = some (s.fault.getD { kind := .uncorrectable, sequence := s.join.tracked.getD 0, sender := sender }) ∧
    (stopOnFault s = false →
      t.life = .excluded ∧ t.exclusionReason = some .uncorrectable ∧ t.replica = .cleared ∧ t.pendingStop = s.pendingStop) ∧
    (stopOnFault s = true →
      t.life = .halted ∧ t.haltReason = some .fault ∧ t.replica = .cleared ∧ t.pendingStop = some .fault) := by
  obtain ⟨config, -, inbound, counters, -, -, -, -, -, excluded, halted⟩ := storageFault_action sender (clearReplica s)
  refine ⟨storageFault_join sender _, counters, config, inbound, ?_, fun clear => ?_, fun set => ?_⟩
  · exact (storageFault_fault sender (clearReplica s)).trans
      (by rw [ownCount_joiner (s := clearReplica s) (.inr life)]; rfl)
  · obtain ⟨life, reason, replica, pendingStop, -⟩ := excluded clear
    exact ⟨life, reason, replica, pendingStop⟩
  · obtain ⟨life, reason, replica, pendingStop, -⟩ := halted set
    exact ⟨life, reason, replica, pendingStop⟩

/-- Settles O38. -/
theorem admissionInstallsTheCopy : Obligations.AdmissionInstallsTheCopy := by
  intro f n copy slots s atVerdict flight body target life abort rosterCopy locks sequence unmarked copied damaged abandoned
  have closes := closeVerdictWindow_installs atVerdict flight body target life abort rosterCopy locks sequence unmarked
  have isCopied : installed copy (counted f s) = copied :=
    congrArg (fun tag : Option GroupTag => ({ copied with tag := tag } : Replica)) target
  refine ⟨fun good late => ?_, fun w mem correctable good => ?_, fun damage => ?_, fun g rest catchUp good damage => ?_⟩
  · rw [install_sound (s := counted f s) f copy good late, isCopied, applyAll_append] at closes
    exact ⟨_, congrArg Host.Outcome.next closes, rfl, rfl, rfl, rfl, fun x => monitorAtAdmission_silence s.straps.id x _ _, rfl,
      rfl, rfl, rfl, rfl, rfl, rfl, rfl, rfl, rfl, rfl, rfl, late⟩
  · have one : OneCorrectable w (installReads (counted f s)) (counted f s).ecc := ⟨mem, correctable, good⟩
    have closes' := closeVerdictWindow_installs (s := corrected w s) atVerdict flight body target life abort rosterCopy locks
      sequence unmarked
    exact congrArg Host.Outcome.next (closes.trans ((congrArg endRound (install_correctable copy one)).trans closes'.symm))
  · have damage : Damaged (installReads (counted f s)) (counted f s).ecc := damage
    rw [install_uncorrectable f copy damage.readable, damage.afterReads] at closes
    exact ⟨_, congrArg Host.Outcome.next closes, abandonInstall_leaves none (s := counted f s) life⟩
  · have damage : Damaged (applicationReads s.straps.id g (installed copy (counted f s))) s.lateDamage := by
      rw [isCopied]
      exact damage
    have damaged : Damaged (applicationReads (self (writeInstalled (counted f s))) g (installed copy (counted f s)))
      (writeInstalled (counted f s)).ecc := damage
    rw [install_readable (s := counted f s) f copy good, show (counted f s).join.catchUp = g :: rest from catchUp,
      List.cons_append, catchUpFrom_uncorrectable damaged.readable, damaged.afterReads] at closes
    exact ⟨_, congrArg Host.Outcome.next closes, abandonInstall_leaves (some g.sender) (s := writeInstalled (counted f s)) life⟩

end Sys2Proof.Machine
end

section
/-! The settlements of O39 to O43: the limits as the closes they act at. -/

namespace Sys2Proof.Machine

variable {s t u : State} {f : Frame} {fl : InFlight} {slots : VerdictSlots}

/-! ### A duplicated ID (R63, R64) -/

/-- The station is EXCLUDED for a duplicated ID, and keeps of `s` what no exclusion touches. -/
structure ExcludedAsDuplicate (s t : State) : Prop where
  life : t.life = .excluded
  reason : t.exclusionReason = some .duplicateId
  pendingStop : t.pendingStop = none
  rejoin : t.rejoin = none
  pointer : t.round.pointer = s.round.pointer
  fault : t.fault = s.fault
  counters : t.counters = s.counters
  config : t.config = s.config
  inbound : t.inbound = s.inbound

/-- A member, a joiner and a listener are excluded, and an excluded station's reason is replaced. -/
theorem duplicateIdAction_excludes (off : s.life ≠ .off) (halted : s.life ≠ .halted) :
    ExcludedAsDuplicate s (duplicateIdAction s) := by
  have excludes : ExcludedAsDuplicate s (exclude .duplicateId s) :=
    ⟨rfl, rfl, rfl, if_neg (by simp [permitsRejoin]), rfl, rfl, rfl, rfl, rfl⟩
  cases life : s.life with
  | off => exact absurd life off
  | halted => exact absurd life halted
  | excluded =>
    rw [duplicateIdAction, life]
    exact ⟨life, rfl, rfl, rfl, rfl, rfl, rfl, rfl, rfl⟩
  | member => rwa [duplicateIdAction, life]
  | entering => rwa [duplicateIdAction, life]
  | copying => rwa [duplicateIdAction, life]
  | listening => rwa [duplicateIdAction, life]

theorem duplicateIdAction_halted (life : s.life = .halted) : duplicateIdAction s = { s with pendingStop := none } := by
  rw [duplicateIdAction, life]

theorem duplicateIdAction_excluded (life : s.life = .excluded) : duplicateIdAction s = changeReason .duplicateId s := by
  rw [duplicateIdAction, life]

theorem ownCount_excluded (life : s.life = .excluded) : ownCount s = 0 := by rw [ownCount, life]

theorem ownCount_halted (life : s.life = .halted) : ownCount s = 0 := by rw [ownCount, life]

theorem ownCount_listening (life : s.life = .listening) : ownCount s = 0 := by rw [ownCount, life]

/-! ### The readback-mismatch limit (R63) -/

theorem sourceVoided_entry {o : Offer} {c : VoidClass} (source : o.source = .entry) :
    sourceVoided o c false s = if s.join.leaveAtEntryClose = true then exclude .left s else s := by
  simp [sourceVoided, source]

/-- An own frame voided by VETO, no STALE beside it: its source takes it back, or ends at this close where a LEAVE is the
limit's or a LEAVE waits on the ENTRY (R66, R121). -/
theorem passOutcome_vetoed (veto : ∃ i : StationId, slots[i] = .veto) (noStale : someSlot slots .stale = false)
    (good : s.ecc.roster = .good) :
    Returned s (passOutcome fl slots s) ∨
      (∃ r, passOutcome fl slots s = exclude r s) ∧ (s.pendingLeave = some .soloVeto ∨ s.join.leaveAtEntryClose = true) := by
  cases wanted : fl.discarded with
  | true => exact .inl (by rw [passOutcome_discarded wanted]; rfl)
  | false =>
    rw [passOutcome_void wanted (verdictOf_veto veto), noStale]
    cases source : fl.offer.source with
    | leave =>
      rw [sourceVoided_leave source]
      by_cases solo : s.pendingLeave = some .soloVeto
      · exact .inr ⟨⟨.soloVeto, if_pos solo⟩, .inl solo⟩
      · exact .inl (by rw [if_neg solo]; exact .refl s)
    | entry =>
      rw [sourceVoided_entry source]
      by_cases leaving : s.join.leaveAtEntryClose = true
      · exact .inr ⟨⟨.left, if_pos leaving⟩, .inr leaving⟩
      · exact .inl (by rw [if_neg leaving]; exact .refl s)
    | host k => exact .inl (by rw [sourceVoided, source]; exact hostVoided_returned .veto good)
    | copy => exact .inl (by rw [sourceVoided, source]; exact copyVoided_returned .veto s)
    | stop => exact .inl (by rw [sourceVoided, source]; exact .refl s)
    | evict => exact .inl (by rw [sourceVoided, source]; exact .refl s)
    | expire => exact .inl (by rw [sourceVoided, source]; exact .refl s)
    | decline => exact .inl (by rw [sourceVoided, source]; exact .refl s)
    | beacon => exact .inl (by rw [sourceVoided, source]; exact .refl s)

/-- What the round received where the own readback failed and the mismatch count reached 4. -/
abbrev misreadAtLimit (before : Bool) (frame : Option Frame) (mark : Option VerdictMark) (line2 : Bool) : Reception :=
  { misreadIn before frame mark true with vetoLine2 := line2 }

/-- The state at the outcome of the own frame then: counts moved on, the pointer unknown, nothing in flight. -/
def misreadCounted (mark : Option VerdictMark) (soloVetoes : Nat) (s : State) : State :=
  countOwnVoided { (if mark = some .veto then countVetoCast s else s) with
    round := { s.round with pointer := none, soloVetoes := soloVetoes, inFlight := none } }

section Mismatch

variable {before line2 : Bool} {frame : Option Frame} {mark : Option VerdictMark}

theorem soloVetoReached_misread
    (flight : s.round.inFlight = some fl)
    (below : line2 = true → (∃ i : StationId, i ≠ s.straps.id ∧ slots[i] = .veto) ∨ s.round.soloVetoes + 1 < 4) :
    soloVetoReached (misreadAtLimit before frame mark line2) slots s = false := by
  cases line2 with
  | false => simp [soloVetoReached, soloVetoesAfter, misreadIn]
  | true =>
    have count : soloVetoesAfter (misreadAtLimit before frame mark true) slots s =
        if vetoedByOthers slots s.straps.id then 0 else s.round.soloVetoes + 1 :=
      (if_pos rfl).trans (if_neg (by simp [wonSilently, flight]))
    exact soloVetoReached_below count (below rfl)

/-- The close at which the mismatch limit acts, under VETO and no STALE. -/
theorem closeVerdictWindow_mismatchLimit (atVerdict : AtVerdict (misreadAtLimit before frame mark line2) s)
    (flight : s.round.inFlight = some fl) (noStale : someSlot slots .stale = false)
    (veto : ∃ i : StationId, slots[i] = .veto)
    (notReached : soloVetoReached (misreadAtLimit before frame mark line2) slots s = false) :
    ∃ n, closeVerdictWindow slots s =
      endRound (mismatchLimitReached (passOutcome fl slots (misreadCounted mark n s))) := by
  have pointer : closePointer (misreadAtLimit before frame mark line2) slots s =
      { s with round := { s.round with pointer := none } } := if_pos rfl
  have own : ∃ n, closeOwnFrame slots (closeSoloVetoes (misreadAtLimit before frame mark line2) slots
      (closeVetoes (misreadAtLimit before frame mark line2) { s with round := { s.round with pointer := none } })) =
      passOutcome fl slots (misreadCounted mark n s) := by
    refine ⟨soloVetoesAfter (misreadAtLimit before frame mark line2) slots
      (closeVetoes (misreadAtLimit before frame mark line2) { s with round := { s.round with pointer := none } }), ?_⟩
    by_cases vetoes : mark = some .veto
    · simp only [closeOwnFrame, closeSoloVetoes, closeVetoes, misreadIn, vetoes, if_true, countVetoCast, flight,
        verdictOf_veto veto, staleOnOwn_of_none noStale, misreadCounted]
      rfl
    · simp only [closeOwnFrame, closeSoloVetoes, closeVetoes, misreadIn, vetoes, if_false, flight, verdictOf_veto veto,
        staleOnOwn_of_none noStale, misreadCounted]
      rfl
  obtain ⟨n, own⟩ := own
  refine ⟨n, ?_⟩
  rw [closeVerdictWindow_eq atVerdict, closeSteps, notReached, pointer, own, flight]
  exact congrArg endRound (handOn_vetoed veto)

theorem exec_readbackMismatchLimit (atVerdict : AtVerdict (misreadAtLimit before frame mark line2) s) :
    exec (.readbackMismatchLimit slots) s = .next (closeVerdictWindow slots s) := by
  obtain ⟨phase, reception⟩ := atVerdict
  exact congrArg Host.Outcome.next (if_pos (by simp [readbackLimitCloses, atClose, phase, reception, misreadIn]))

end Mismatch

/-! ### A frame with the own ID (R64) -/

/-- The counts at such a close: a veto cast, and the pointer unknown. -/
def duplicateCounted (s : State) : State := countVetoCast { s with round := { s.round with pointer := none } }

/-- The close of a frame with the own ID that this station vetoed: the pointer is unknown and the solo-veto count stays. -/
theorem closeVerdictWindow_duplicate (atVerdict : AtVerdict { received f (some .veto) with duplicate := true } s)
    (flight : s.round.inFlight = none) :
    closeVerdictWindow slots s =
      endRound (duplicateSender (duplicateCounted s)) := by
  have stays : soloVetoesAfter { received f (some .veto) with duplicate := true } slots s = s.round.soloVetoes := by
    simp [soloVetoesAfter, receivedIn]
  have notReached : soloVetoReached { received f (some .veto) with duplicate := true } slots s = false := by
    simp [soloVetoReached, stays]
  have pointer : closePointer { received f (some .veto) with duplicate := true } slots s =
      { s with round := { s.round with pointer := none } } := if_pos rfl
  have counts : closeSoloVetoes { received f (some .veto) with duplicate := true } slots
      (closeVetoes { received f (some .veto) with duplicate := true } { s with round := { s.round with pointer := none } }) =
      duplicateCounted s := by
    simp [closeSoloVetoes, closeVetoes, receivedIn, countVetoCast, soloVetoesAfter, duplicateCounted]
  rw [closeVerdictWindow_eq atVerdict, closeSteps, notReached, pointer, counts,
    closeOwnFrame_of_none (s := duplicateCounted s) flight]
  rfl

/-- What the limit at a mismatch finds after the own frame's outcome: a station that is in no halt, with its counts moved on. -/
structure MismatchOutcome (s t : State) : Prop where
  off : t.life ≠ .off
  halted : t.life ≠ .halted
  pointer : t.round.pointer = none
  fault : t.fault = s.fault
  vetoesCast : t.counters.vetoesCast = saturate s.counters.vetoesCast 1
  ownVoided : t.counters.ownVoided = saturate s.counters.ownVoided 1
  config : t.config = s.config
  inbound : t.inbound = s.inbound
  count : s.pendingLeave ≠ some .soloVeto → s.join.leaveAtEntryClose = false → ownCount t = ownCount s

theorem passOutcome_mismatch {n : Nat} (veto : ∃ i : StationId, slots[i] = .veto) (noStale : someSlot slots .stale = false)
    (good : s.ecc.roster = .good) (off : s.life ≠ .off) (halted : s.life ≠ .halted) :
    MismatchOutcome s (passOutcome fl slots (misreadCounted (some .veto) n s)) := by
  obtain returned | ⟨⟨r, ended⟩, why⟩ :=
    passOutcome_vetoed (s := misreadCounted (some .veto) n s) (fl := fl) veto noStale good
  · have life := returned.keeps State.life rfl
    exact ⟨fun h => off (life.symm.trans h), fun h => halted (life.symm.trans h),
      returned.keeps (fun v => v.round.pointer) rfl, returned.keeps State.fault rfl,
      returned.keeps (fun v => v.counters.vetoesCast) rfl, returned.keeps (fun v => v.counters.ownVoided) rfl,
      returned.keeps State.config rfl, returned.keeps State.inbound rfl, fun _ _ => returned.keeps ownCount rfl⟩
  · rw [ended]
    refine ⟨nofun, nofun, rfl, rfl, rfl, rfl, rfl, rfl, fun notSolo stays => ?_⟩
    obtain solo | leaving := why
    · exact absurd solo notSolo
    · exact absurd (stays.symm.trans leaving) (by decide)

/-- The duplicated ID dealt with after its fault is recorded. -/
theorem duplicateIdAction_recorded (sequence : Half) (sender : Option StationId) (off : s.life ≠ .off)
    (halted : s.life ≠ .halted) :
    ExcludedAsDuplicate { s with fault := some (s.fault.getD { kind := .duplicateId, sequence := sequence, sender := sender }) }
      (duplicateIdAction (recordFault .duplicateId sequence sender s)) := by
  rw [recordFault_eq]
  exact duplicateIdAction_excludes off halted

/-- Settles O39. -/
theorem readbackLimitMeansADuplicateId : Obligations.ReadbackLimitMeansADuplicateId := by
  refine ⟨fun before frame line2 slots s fl mark atVerdict flight good noStale' veto below => ?_,
    fun f slots s atVerdict flight own => ?_⟩
  · have noStale := (someSlot_eq_false (slots := slots) .stale).2 noStale'
    obtain ⟨n, closes⟩ := closeVerdictWindow_mismatchLimit atVerdict flight noStale veto (soloVetoReached_misread flight below)
    rw [exec_readbackMismatchLimit atVerdict, closes]
    refine ⟨fun vetoes life => ?_, fun silent life source => ?_⟩
    · obtain rfl := vetoes
      have off : s.life ≠ .off := by rcases life with life | life | life | life | life <;> simp [life]
      have halted : s.life ≠ .halted := by rcases life with life | life | life | life | life <;> simp [life]
      have outcome := passOutcome_mismatch (n := n) (fl := fl) veto noStale good off halted
      generalize passOutcome fl slots (misreadCounted (some .veto) n s) = v at outcome
      have excluded := duplicateIdAction_recorded (ownCount v) none outcome.off outcome.halted
      exact ⟨_, ownCount v, rfl, excluded.life, excluded.reason, excluded.pendingStop, excluded.rejoin,
        excluded.pointer.trans outcome.pointer, excluded.fault.trans (by rw [outcome.fault]), outcome.count,
        (congrArg Counters.vetoesCast excluded.counters).trans outcome.vetoesCast,
        (congrArg Counters.ownVoided excluded.counters).trans outcome.ownVoided, excluded.config.trans outcome.config,
        excluded.inbound.trans outcome.inbound⟩
    · obtain rfl := silent
      have stays : passOutcome fl slots (misreadCounted none n s) = misreadCounted none n s := by
        cases wanted : fl.discarded with
        | true => exact passOutcome_discarded wanted
        | false => rw [passOutcome_void wanted (verdictOf_veto veto), sourceVoided, source]
      rw [stays, mismatchLimitReached, recordFault_eq, duplicateIdAction_halted (by exact life)]
      have count : ownCount (misreadCounted none n s) = 0 := ownCount_halted life
      rw [count]
      exact ⟨_, rfl, life, rfl, rfl, rfl, rfl, rfl⟩
  · have closes := closeVerdictWindow_duplicate (slots := slots) atVerdict flight
    refine ⟨fun life => ?_, fun life => ?_, fun life => ?_⟩
    · have off : s.life ≠ .off := by rcases life with life | life | life | life <;> simp [life]
      have halted : s.life ≠ .halted := by rcases life with life | life | life | life <;> simp [life]
      have excluded := duplicateIdAction_recorded (s := duplicateCounted s) (ownCount s) (some s.straps.id) off halted
      have acts : duplicateSender (duplicateCounted s) =
          duplicateIdAction (recordFault .duplicateId (ownCount s) (some s.straps.id) (duplicateCounted s)) := if_neg halted
      rw [acts] at closes
      exact ⟨_, congrArg Host.Outcome.next closes, excluded.life, excluded.reason, excluded.pendingStop, excluded.rejoin,
        excluded.pointer, excluded.fault, excluded.counters, excluded.config, excluded.inbound⟩
    · have acts : duplicateSender (duplicateCounted s) = changeReason .duplicateId
          { duplicateCounted s with
            fault := some (s.fault.getD { kind := .duplicateId, sequence := 0, sender := some s.straps.id }) } := by
        have notHalted : (duplicateCounted s).life ≠ .halted := fun h => absurd (life.symm.trans h) (by decide)
        have count : ownCount (duplicateCounted s) = 0 := ownCount_excluded life
        refine (if_neg notHalted).trans ?_
        rw [recordFault_eq, count, duplicateIdAction_excluded (by exact life)]
        rfl
      rw [acts] at closes
      exact congrArg Host.Outcome.next closes
    · have acts : duplicateSender (duplicateCounted s) = duplicateCounted s := if_pos life
      rw [acts] at closes
      exact congrArg Host.Outcome.next closes

/-! ### The solo-veto limit (R65, R66) -/

/-- The station at the solo-veto limit before it acts: the veto cast, the fault recorded, and suppression in force. -/
def soloVetoCounted (s : State) : State :=
  { s with
    counters := { s.counters with vetoesCast := saturate s.counters.vetoesCast 1 },
    fault := some (s.fault.getD { kind := .soloVeto, sequence := ownCount s, sender := none }),
    round := { s.round with soloVetoes := 4, suppressed := true } }

/-- The close at which the solo-veto count reaches its limit. -/
theorem exec_soloVetoLimit (atVerdict : AtVerdict (unreceived true) s) (flight : s.round.inFlight = none)
    (won : s.round.won = false) (three : s.round.soloVetoes = 3) (own : slots[s.straps.id] = .veto)
    (alone : ∀ i : StationId, i ≠ s.straps.id → slots[i] ≠ .veto) :
    exec (.soloVetoLimit slots) s = .next (endRound (soloVetoAction (soloVetoCounted s))) := by
  have count : soloVetoesAfter (unreceived true) slots s = 4 := by
    have others := (vetoedByOthers_eq_false (slots := slots) s.straps.id).2 alone
    simp [soloVetoesAfter, unreceived, wonSilently, won, self, others, three]
  have reached : soloVetoReached (unreceived true) slots s = true := by
    simp [soloVetoReached, count, three, Config.soloVetoLimit]
  have closes : soloVetoLimitCloses slots s = true := by
    obtain ⟨phase, reception⟩ := atVerdict
    simp [soloVetoLimitCloses, atClose, phase, reception, reached]
  refine congrArg Host.Outcome.next ((if_pos closes).trans ?_)
  rw [closeVerdictWindow_unreceived atVerdict flight own, reached, count]
  refine congrArg endRound ?_
  simp only [closeLimits, unreceived, soloVetoLimitReached, recordFault_eq]
  rfl

theorem soloVetoAction_pends (life : s.life = .member ∨ Joining s ∧ s.join.isOpen = true) :
    soloVetoAction s = { s with pendingLeave := some .soloVeto } := by
  obtain life | ⟨life | life, isOpen⟩ := life
  · rw [soloVetoAction, life]
  · rw [soloVetoAction, life]
    exact if_pos isOpen
  · rw [soloVetoAction, life]
    exact if_pos isOpen

theorem soloVetoAction_excludes (life : s.life = .listening ∨ Joining s ∧ s.join.isOpen = false) :
    soloVetoAction s = exclude .soloVeto s := by
  obtain life | ⟨life | life, isOpen⟩ := life
  · rw [soloVetoAction, life]
  · rw [soloVetoAction, life]
    exact if_neg (by simp [isOpen])
  · rw [soloVetoAction, life]
    exact if_neg (by simp [isOpen])

theorem soloVetoAction_excluded (life : s.life = .excluded) : soloVetoAction s = changeReason .soloVeto s := by
  rw [soloVetoAction, life]

theorem soloVetoAction_halted (life : s.life = .halted) : soloVetoAction s = s := by rw [soloVetoAction, life]

/-- Settles O40. -/
theorem soloVetoLimitSuppressesAndLeaves : Obligations.SoloVetoLimitSuppressesAndLeaves := by
  intro slots s atVerdict flight won three own alone counted tracked excluded
  have closes := exec_soloVetoLimit atVerdict flight won three own alone
  have excludes (life : s.life = .listening ∨ Joining s ∧ s.join.isOpen = false) : excluded (ownCount s) := by
    rw [soloVetoAction_excludes (s := soloVetoCounted s) life] at closes
    exact ⟨_, closes, rfl, rfl, rfl, rfl, rfl, rfl, rfl, rfl, rfl, rfl⟩
  have pends (life : s.life = .member ∨ Joining s ∧ s.join.isOpen = true) :
      exec (.soloVetoLimit slots) s = .next { counted (ownCount s) with pendingLeave := some .soloVeto } := by
    rw [closes, soloVetoAction_pends (s := soloVetoCounted s) life]
    rfl
  refine ⟨fun life => ?_, fun life => ⟨fun isOpen => ?_, fun shut => ?_⟩, fun life => ?_, fun life => ?_, fun life => ?_⟩
  · rw [← ownCount_member life]
    exact pends (.inl life)
  · have count : ownCount s = tracked := ownCount_joiner life
    rw [← count]
    exact pends (.inr ⟨life, isOpen⟩)
  · have count : ownCount s = tracked := ownCount_joiner life
    rw [← count]
    exact excludes (.inr ⟨life, shut⟩)
  · rw [← ownCount_listening life]
    exact excludes (.inl life)
  · rw [closes, soloVetoAction_excluded (s := soloVetoCounted s) life, ← ownCount_excluded life]
    rfl
  · rw [closes, soloVetoAction_halted (s := soloVetoCounted s) life, ← ownCount_halted life]
    rfl

end Sys2Proof.Machine
end

section
/-! The settlements of O41 to O43: a host frame and a copy frame at their limits. -/

namespace Sys2Proof.Machine

variable {s t u : State} {f : Frame} {fl : InFlight} {head : HostFrame} {rest : List HostFrame} {slots : VerdictSlots}

/-! ### The head dropped at a limit (R68, R70) -/

theorem ticketOfRecord_limitRecord (head : HostFrame) (reason : Undelivered) :
    ticketOfRecord (limitRecord head reason) = some (hostTicket head) := by
  cases head <;> rfl

/-- The leases once this frame is dropped: a reservation under a CLAIM's ticket ends (R141). -/
def leasesAfterDrop : HostFrame → List Lease → List Lease
  | .claim _ _ _ _ t, ls => ls.filter fun l => !reservedUnder t l
  | _, ls => ls

theorem cancelForDrop_eq (head : HostFrame) (s : State) :
    cancelForDrop head s = { s with leases := leasesAfterDrop head s.leases } := by
  cases head <;> rfl

/-- The state when the head of the host queue has been dropped with its record. -/
def headDropped (head : HostFrame) (rest : List HostFrame) (k : Ticket) (reason : Undelivered) (s : State) : State :=
  { s with
    hostQueue := rest, hostRetry := .zero, busyWait := none,
    tickets := put s.tickets (hostTicket head) (some { k with place := .recorded }),
    records := s.records ++ [limitRecord head reason], leases := leasesAfterDrop head s.leases,
    counters := { s.counters with framesDropped := saturate s.counters.framesDropped 1 } }

theorem dropHead_eq {k : Ticket} (reason : Undelivered) (queue : s.hostQueue = head :: rest)
    (nextNotNote : ∀ d tp p t, rest.head? ≠ some (.note d tp p t)) (ticket : s.tickets[hostTicket head] = some k) :
    dropHead head reason s = headDropped head rest k reason s := by
  have tail : s.hostQueue.tail = rest := congrArg List.tail queue
  rw [dropHead, cancelForDrop_eq,
    makeRecord_ticketed (s := { popHead (countDropped s) with leases := _ }) (ticketOfRecord_limitRecord head reason) ticket,
    lookupHead_of_not_note (by show ∀ d tp p t, s.hostQueue.tail.head? ≠ _; rw [tail]; exact nextNotNote), headDropped,
    ← tail]
  rfl

/-! ### The close at the member that sent the frame -/

/-- An own frame that is void is handed on to nobody (R40). -/
theorem handOn_ownVoid {c : VoidClass} (life : s.life = .member) (tag : s.replica.tag = some f.tag)
    (notStop : ∀ r, f.body ≠ .stop r) (void : verdictOf f.body slots = .void c) : handOn f true false slots s = s := by
  rw [handOn_member notStop life, closeAtMember, if_neg (by simp [not_foreign_of_own_tag life tag])]
  simp [void]

theorem closeVerdictWindow_memberVoid {c : VoidClass} (atVerdict : AtVerdict (received fl.frame none) s)
    (flight : s.round.inFlight = some fl) (wanted : fl.discarded = false) (noStale : someSlot slots .stale = false)
    (void : verdictOf fl.frame.body slots = .void c) (notStop : ∀ r, fl.frame.body ≠ .stop r)
    (life : (sourceVoided fl.offer c false (voidCounted fl.frame slots s)).life = .member)
    (tag : (sourceVoided fl.offer c false (voidCounted fl.frame slots s)).replica.tag = some fl.frame.tag) :
    closeVerdictWindow slots s = endRound (sourceVoided fl.offer c false (voidCounted fl.frame slots s)) := by
  rw [closeVerdictWindow_ownVoid atVerdict flight wanted noStale void, handOn_ownVoid life tag notStop void]

theorem sourceVoided_host {o : Offer} {c : VoidClass} {t : TicketId} (source : o.source = .host t) :
    sourceVoided o c false s = hostVoided c s := by
  rw [sourceVoided, source]

/-- The head is retried, where a NOTE's destination is FULL and the roster's word good (R67, R151). -/
theorem hostVoided_retried (c : VoidClass) (queue : s.hostQueue = head :: rest) (good : s.ecc.roster = .good)
    (full : ∀ d tp p t, head = .note d tp p t → s.replica.roster[d] = .full) : hostVoided c s = hostRetried head c s := by
  have allGood : AllGood [.roster] s.ecc := by simp [AllGood, conditionOf, good]
  cases head with
  | note d tp p t =>
    simp only [hostVoided, queue, noteVoided, readable_allGood allGood, afterReads_allGood allGood, Bool.not_true,
      Bool.false_eq_true, if_false]
    exact if_pos (full d tp p t rfl)
  | _ => simp only [hostVoided, queue]

theorem headRetryable_of (queue : s.hostQueue = head :: rest) (good : s.ecc.roster = .good)
    (full : ∀ d tp p t, head = .note d tp p t → s.replica.roster[d] = .full) : headRetryable s = true := by
  have allGood : AllGood [.roster] s.ecc := by simp [AllGood, conditionOf, good]
  cases head with
  | note d tp p t =>
    have full : s.replica.roster[d.val] = .full := full d tp p t rfl
    simp [headRetryable, queue, readable_allGood allGood, full]
  | _ => simp [headRetryable, queue]

theorem not_stop_of_hostBody (body : f.body = hostBody head) (r : StopReason) : f.body ≠ .stop r := by
  rw [body]
  cases head <;> simp [hostBody]

theorem ownVoid_of {test : Source → VoidClass → Bool} {c : VoidClass} (flight : s.round.inFlight = some fl)
    (wanted : fl.discarded = false) (void : verdictOf fl.frame.body slots = .void c) (passes : test fl.offer.source c = true) :
    ownVoid slots s test = true := by
  simp [ownVoid, flight, void, wanted, passes]

theorem atClose_of {r : Reception} {test : Reception → Bool} (atVerdict : AtVerdict r s) (passes : test r = true) :
    atClose test s = true := by
  obtain ⟨phase, reception⟩ := atVerdict
  simp [atClose, phase, reception, passes]

theorem voidCounted_vetoed (veto : ∃ i : StationId, slots[i] = .veto) :
    voidCounted f slots s = countOwnVoided (withCounts s.round.pointer 0 s) := by
  have notClean : clean slots = false := by simp [Machine.clean, (someSlot_iff _).2 veto]
  simp [voidCounted, afterCounts, notClean, withCounts]

theorem voidCounted_clean (noVeto : clean slots = true) :
    voidCounted f slots s = countOwnVoided (withCounts (some (f.sender + 1)) 0 s) := by
  simp [voidCounted, afterCounts, noVeto, withCounts]

section Host

variable {k : Ticket} {c : VoidClass}

/-- What the limits of a host frame share: the own host frame is the head, wanted, and void with this class, no NOTE comes next, and
the ticket is in use (R67, R68, R70). -/
structure HeadVoided (head : HostFrame) (rest : List HostFrame) (k : Ticket) (fl : InFlight) (c : VoidClass)
    (slots : VerdictSlots) (s : State) : Prop where
  atVerdict : AtVerdict (received fl.frame none) s
  flight : s.round.inFlight = some fl
  source : fl.offer.source = .host (hostTicket head)
  wanted : fl.discarded = false
  body : fl.frame.body = hostBody head
  life : s.life = .member
  queue : s.hostQueue = head :: rest
  nextNotNote : ∀ d tp p t, rest.head? ≠ some (.note d tp p t)
  ticket : s.tickets[hostTicket head] = some k
  tag : s.replica.tag = some fl.frame.tag
  good : s.ecc.roster = .good
  full : ∀ d tp p t, head = .note d tp p t → s.replica.roster[d] = .full
  noStale : someSlot slots .stale = false
  void : verdictOf fl.frame.body slots = .void c

namespace HeadVoided

/-- The close hands the void frame to the retry rules. -/
theorem closes (h : HeadVoided head rest k fl c slots s) {after : State}
    (retried : hostRetried head c (voidCounted fl.frame slots s) = after) (life : after.life = s.life)
    (replica : after.replica = s.replica) : closeVerdictWindow slots s = endRound after := by
  have voided : sourceVoided fl.offer c false (voidCounted fl.frame slots s) = after := by
    rw [sourceVoided_host h.source,
      hostVoided_retried (s := voidCounted fl.frame slots s) c h.queue h.good h.full, retried]
  have closes := closeVerdictWindow_memberVoid h.atVerdict h.flight h.wanted h.noStale h.void (not_stop_of_hostBody h.body)
    (by rw [voided, life]; exact h.life) (by rw [voided, replica]; exact h.tag)
  rwa [voided] at closes

/-- The close that drops the head. -/
theorem drops (h : HeadVoided head rest k fl c slots s) {reason : Undelivered}
    (retried : hostRetried head c (voidCounted fl.frame slots s) = dropHead head reason (voidCounted fl.frame slots s)) :
    closeVerdictWindow slots s = endRound (headDropped head rest k reason (voidCounted fl.frame slots s)) :=
  h.closes (retried.trans (dropHead_eq (s := voidCounted fl.frame slots s) reason h.queue h.nextNotNote h.ticket)) rfl rfl

/-- ATTEMPT_LIMIT_DROP (R68). -/
theorem exec_attemptLimitDrop (h : HeadVoided head rest k fl c slots s) (attempts : s.hostRetry.attempts = 7)
    (counts : c = .veto ∨ c = .noAnswer) :
    exec (.attemptLimitDrop slots) s =
      .next (endRound (headDropped head rest k (attemptReason c) (voidCounted fl.frame slots s))) := by
  have limit : attemptLimitCloses slots s = true := by
    have void : ownVoid slots s (fun o c => isHostSource o && (c == .veto || c == .noAnswer)) = true :=
      ownVoid_of h.flight h.wanted h.void (by rcases counts with rfl | rfl <;> simp [h.source, isHostSource])
    simp [attemptLimitCloses, atClose_of h.atVerdict, headRetryable_of h.queue h.good h.full, void, attempts,
      Config.attemptLimit]
  have attempted : hostAttempt head c (voidCounted fl.frame slots s) =
      dropHead head (attemptReason c) (voidCounted fl.frame slots s) :=
    if_pos (show Config.attemptLimit ≤ s.hostRetry.attempts + 1 by simp [attempts, Config.attemptLimit])
  have retried : hostRetried head c (voidCounted fl.frame slots s) =
      dropHead head (attemptReason c) (voidCounted fl.frame slots s) := by
    rcases counts with rfl | rfl
    · exact attempted
    · exact attempted
  exact congrArg Host.Outcome.next ((if_pos limit).trans (h.drops retried))

/-- BUSY_LIMIT_DROP (R70). -/
theorem exec_busyLimitDrop (h : HeadVoided head rest k fl .busy slots s) (busy : s.hostRetry.busy = 15) :
    exec (.busyLimitDrop slots) s =
      .next (endRound (headDropped head rest k .busyLimit (voidCounted fl.frame slots s))) := by
  have limit : busyLimitCloses slots s = true := by
    have void : ownVoid slots s (fun o c => isHostSource o && c == .busy) = true :=
      ownVoid_of h.flight h.wanted h.void (by simp [h.source, isHostSource])
    simp [busyLimitCloses, atClose_of h.atVerdict, headRetryable_of h.queue h.good h.full, void, busy, Config.busyLimit]
  have dropped : hostBusy head (voidCounted fl.frame slots s) = dropHead head .busyLimit (voidCounted fl.frame slots s) :=
    if_pos (show Config.busyLimit ≤ s.hostRetry.busy + 1 by simp [busy, Config.busyLimit])
  exact congrArg Host.Outcome.next ((if_pos limit).trans (h.drops dropped))

end HeadVoided

end Host

/-- Settles O41. -/
theorem attemptLimitDropsTheHead : Obligations.AttemptLimitDropsTheHead := by
  intro head fl rest k slots s atVerdict flight source wanted body life queue nextNotNote attempts ticket tag good noStale'
    dropped
  have noStale := (someSlot_eq_false (slots := slots) .stale).2 noStale'
  have voided {c : VoidClass} (full : ∀ d tp p t, head = .note d tp p t → s.replica.roster[d] = .full)
      (void : verdictOf fl.frame.body slots = .void c) : HeadVoided head rest k fl c slots s :=
    ⟨atVerdict, flight, source, wanted, body, life, queue, nextNotNote, ticket, tag, good, full, noStale, void⟩
  refine ⟨fun veto => ?_, ?_⟩
  · have drops (full : ∀ d tp p t, head = .note d tp p t → s.replica.roster[d] = .full) :=
      (voided full (verdictOf_veto veto)).exec_attemptLimitDrop attempts (.inl rfl)
    rw [voidCounted_vetoed veto] at drops
    refine ⟨fun lk m c fo t isClaim => ?_, fun lk t isYield => ?_, fun lk tg t isRecall => ?_, fun d tp p t isNote full => ?_⟩
    · subst isClaim
      exact drops (by simp)
    · subst isYield
      exact drops (by simp)
    · subst isRecall
      exact drops (by simp)
    · subst isNote
      exact drops (by rintro _ _ _ _ ⟨rfl⟩; exact full)
  · intro d tp p t isNote full noVeto silent
    subst isNote
    have void : verdictOf fl.frame.body slots = .void .noAnswer := by
      rw [body, hostBody, verdictOf_clear ((someSlot_eq_false .veto).2 noVeto) noStale]
      have silent : slots[d.val] = .empty := silent
      simp [silent]
    have drops := (voided (by rintro _ _ _ _ ⟨rfl⟩; exact full) void).exec_attemptLimitDrop attempts (.inr rfl)
    rw [voidCounted_clean (clean_iff.2 noVeto)] at drops
    exact drops

/-- Settles O43. -/
theorem busyNoteWaitsAndIsDroppedAtTheLimit : Obligations.BusyNoteWaitsAndIsDroppedAtTheLimit := by
  intro d tp p t fl rest k slots s atVerdict flight source wanted body life queue nextNotNote ticket tag good full busy clear
  have noVeto : clean slots = true := clean_iff.2 fun i => (clear i).1
  have noStale := (someSlot_eq_false (slots := slots) .stale).2 fun i => (clear i).2
  have void : verdictOf fl.frame.body slots = .void .busy := by
    rw [body, verdictOf_clear ((someSlot_eq_false .veto).2 fun i => (clear i).1) noStale]
    have busy : slots[d.val] = .busy := busy
    simp [busy]
  have voided : HeadVoided (.note d tp p t) rest k fl .busy slots s :=
    ⟨atVerdict, flight, source, wanted, body, life, queue, nextNotNote, ticket, tag, good,
      by rintro _ _ _ _ ⟨rfl⟩; exact full, noStale, void⟩
  refine ⟨fun limit => ?_, fun below => ?_⟩
  · rw [voided.exec_busyLimitDrop limit, voidCounted_clean noVeto]
    rfl
  · have waits : hostRetried (.note d tp p t) .busy (voidCounted fl.frame slots s) = _ :=
      if_neg (show ¬Config.busyLimit ≤ s.hostRetry.busy + 1 by simp only [Config.busyLimit]; omega)
    refine congrArg Host.Outcome.next ((voided.closes waits rfl rfl).trans ?_)
    rw [voidCounted_clean noVeto, groupBeats, Nat.one_mul]
    rfl

/-! ### The copy frame (R69) -/

theorem dropCopyFrame_eq {c : CopyState} {frame : CopyFrame} {rest : List CopyFrame} (copy : s.copy = some c)
    (frames : c.frames = frame :: rest) :
    dropCopyFrame s =
      { s with
        copy := if rest = [] then none else some { c with frames := rest }, copyRetry := .zero,
        monitor := { s.monitor with
          pendingEvict := if rest = [] then addTo s.monitor.pendingEvict c.joiner else s.monitor.pendingEvict },
        counters := { s.counters with framesDropped := saturate s.counters.framesDropped 1 } } := by
  cases rest with
  | nil =>
    simp only [dropCopyFrame, copy, frames]
    rfl
  | cons next later =>
    simp only [dropCopyFrame, copy, frames, advanceCopy]
    rfl

/-- Settles O42. -/
theorem copyFrameIsDroppedAtTheLimit : Obligations.CopyFrameIsDroppedAtTheLimit := by
  intro c frame rest fl slots s atVerdict flight source wanted body life tag copy frames attempts veto noStale'
  have noStale := (someSlot_eq_false (slots := slots) .stale).2 noStale'
  have limit : copyLimitCloses slots s = true := by
    have void : ownVoid slots s (fun o c => o == .copy && c == .veto) = true :=
      ownVoid_of flight wanted (verdictOf_veto veto) (by simp [source])
    simp [copyLimitCloses, atClose_of atVerdict, copy, void, attempts, Config.attemptLimit]
  have drops : sourceVoided fl.offer .veto false (voidCounted fl.frame slots s) =
      dropCopyFrame (voidCounted fl.frame slots s) := by
    rw [sourceVoided, source]
    exact (if_pos rfl).trans (if_pos
      (show Config.attemptLimit ≤ s.copyRetry.attempts + 1 by simp [attempts, Config.attemptLimit]))
  refine congrArg Host.Outcome.next ((if_pos limit).trans ?_)
  rw [closeVerdictWindow_ownVoid atVerdict flight wanted noStale (verdictOf_veto veto), drops, handOn_vetoed veto,
    dropCopyFrame_eq (s := voidCounted fl.frame slots s) copy frames, voidCounted_vetoed veto]
  rfl

end Sys2Proof.Machine
end

section
/-! The check word, and the fields of a frame: what decodes to a value is exactly what the value is encoded as (R187, R188). -/

namespace Sys2Proof.Machine

/-! ### The check word (R187) -/

/-- The register holds these bits from bit 15 down, and zeros below them. -/
def HoldsAtTop (bs : List Bool) (r : Half) : Prop := ∀ i < 16, r.getLsbD (15 - i) = (bs[i]?).getD false

theorem holdsAtTop_nil (r : Half) : HoldsAtTop [] r ↔ r = 0 := by
  constructor
  · intro holds
    refine BitVec.eq_of_getLsbD_eq fun i inside => ?_
    have bit := holds (15 - i) (by omega)
    rw [show 15 - (15 - i) = i by omega] at bit
    simpa using bit
  · rintro rfl i -
    simp

theorem crcBit_getLsbD (r : Half) (b : Bool) {j : Nat} (inside : j < 16) :
    (crcBit r b).getLsbD j =
      ((decide (0 < j) && r.getLsbD (j - 1)) ^^ ((r.getLsbD 15 != b) && (0x1021#16).getLsbD j)) := by
  unfold crcBit
  split
  · next differs =>
    rw [BitVec.getLsbD_xor, BitVec.getLsbD_shiftLeft, differs]
    cases j <;> simp [inside]
  · next same =>
    rw [BitVec.getLsbD_shiftLeft]
    cases j <;> simp_all

/-- A bit leaves the rest of a run at the top of the register exactly when it was the first of it. -/
theorem holdsAtTop_crcBit {b : Bool} {bs : List Bool} (short : bs.length ≤ 15) (r : Half) :
    HoldsAtTop bs (crcBit r b) ↔ HoldsAtTop (b :: bs) r := by
  constructor
  · intro holds
    have top : r.getLsbD 15 = b := by
      have low := holds 15 (by omega)
      rw [crcBit_getLsbD r b (by omega), List.getElem?_eq_none short] at low
      simpa using low
    intro i inside
    match i with
    | 0 => simpa using top
    | i + 1 =>
      have bit := holds i (by omega)
      rw [crcBit_getLsbD r b (by omega), top] at bit
      have above : 0 < 15 - i := by omega
      simpa [above, show 15 - i - 1 = 15 - (i + 1) by omega] using bit
  · intro holds i inside
    have top : r.getLsbD 15 = b := by simpa using holds 0 (by omega)
    rw [crcBit_getLsbD r b (by omega), top]
    by_cases last : i = 15
    · subst last
      simp [List.getElem?_eq_none short]
    · have bit := holds (i + 1) (by omega)
      have above : 0 < 15 - i := by omega
      simpa [above, show 15 - i - 1 = 15 - (i + 1) by omega] using bit

/-- A register returns to zero under exactly the bits it holds at its top. -/
theorem foldl_crcBit_eq_zero {bs : List Bool} (short : bs.length ≤ 16) (r : Half) :
    bs.foldl crcBit r = 0 ↔ HoldsAtTop bs r := by
  induction bs generalizing r with
  | nil => exact (holdsAtTop_nil r).symm
  | cons b bs ih =>
    simp only [List.length_cons] at short
    rw [List.foldl_cons, ih (by omega), holdsAtTop_crcBit (by omega)]

theorem halfOf_getLsbD (h l : Byte) (i : Nat) :
    (halfOf h l).getLsbD i = if i < 8 then l.getLsbD i else h.getLsbD (i - 8) :=
  BitVec.getLsbD_append

theorem bitsOf_getD (b : Byte) {i : Nat} (inside : i < 8) : ((bitsOf b)[i]?).getD false = b.getLsbD (7 - i) := by
  interval_cases i <;> rfl

theorem holdsAtTop_bitsOf (h l : Byte) (r : Half) : HoldsAtTop (bitsOf h ++ bitsOf l) r ↔ r = halfOf h l := by
  have bits (i : Nat) (inside : i < 16) :
      ((bitsOf h ++ bitsOf l)[i]?).getD false = (halfOf h l).getLsbD (15 - i) := by
    rw [halfOf_getLsbD]
    by_cases first : i < 8
    · rw [List.getElem?_append_left (by simpa [bitsOf] using first), bitsOf_getD h first, if_neg (by omega)]
      congr 1
      omega
    · rw [List.getElem?_append_right (by simp only [bitsOf, List.length_cons, List.length_nil]; omega), if_pos (by omega)]
      simp only [bitsOf, List.length_cons, List.length_nil]
      rw [← bitsOf, bitsOf_getD l (by omega)]
      congr 1
      omega
  constructor
  · intro holds
    refine BitVec.eq_of_getLsbD_eq fun i inside => ?_
    have bit := holds (15 - i) (by omega)
    rw [bits _ (by omega), show 15 - (15 - i) = i by omega] at bit
    exact bit
  · rintro rfl i inside
    exact (bits i inside).symm

theorem crcFrom_append (r : Half) (xs ys : List Byte) : crcFrom r (xs ++ ys) = crcFrom (crcFrom r xs) ys :=
  List.foldl_append

/-- The check word closes a run of bytes to zero, and nothing else does. -/
theorem checkWord_closes (bytes : List Byte) (h l : Byte) :
    checkWord (bytes ++ [h, l]) = 0 ↔ checkWord bytes = halfOf h l := by
  have bits : crcFrom (checkWord bytes) [h, l] = (bitsOf h ++ bitsOf l).foldl crcBit (checkWord bytes) := by
    rw [List.foldl_append]
    rfl
  rw [← holdsAtTop_bitsOf, ← foldl_crcBit_eq_zero (by simp [bitsOf]), ← bits, checkWord, crcFrom_append]
  rfl

end Sys2Proof.Machine
end

section
/-! The fields of a frame: what decodes to a value is exactly what the value is encoded as (R188). -/

namespace Sys2Proof.Machine

/-! ### Numbers, nibbles and two-byte fields -/

theorem byteOf_toNat {n : Nat} (small : n < 256) : (byteOf n).toNat = n := by
  simpa [byteOf] using small

theorem eq_byteOf_iff {b : Byte} {n : Nat} (small : n < 256) : b = byteOf n ↔ b.toNat = n := by
  rw [← BitVec.toNat_inj, byteOf_toNat small]

theorem smallOf_eq_some {b : Byte} {x : Fin 16} : smallOf b = some x ↔ b = byteOf x.val := by
  rw [eq_byteOf_iff (by omega), smallOf]
  split
  · simp [Fin.ext_iff]
  · next big =>
    have := x.isLt
    simp
    omega

theorem lockOf_eq_some {b : Byte} {k : LockId} : lockOf b = some k ↔ b = byteOf k.val := by
  rw [eq_byteOf_iff (by omega), lockOf]
  split
  · simp [Fin.ext_iff]
  · next big =>
    have := k.isLt
    simp
    omega

theorem nibbles_of (b : Byte) : nibbles (hiNibble b) (loNibble b) = b := by
  revert b
  decide

theorem hiNibble_nibbles (x y : Fin 16) : hiNibble (nibbles x y) = x := by
  revert x y
  decide

theorem loNibble_nibbles (x y : Fin 16) : loNibble (nibbles x y) = y := by
  revert x y
  decide

theorem halfOf_bytes (w : Half) : halfOf (hiByte w) (loByte w) = w := by
  refine BitVec.eq_of_getLsbD_eq fun i inside => ?_
  rw [halfOf_getLsbD]
  by_cases low : i < 8
  · simp [low, loByte]
  · simp [low, hiByte, show i - 8 < 8 by omega, show 8 + (i - 8) = i by omega]

theorem hiByte_halfOf (h l : Byte) : hiByte (halfOf h l) = h := by
  refine BitVec.eq_of_getLsbD_eq fun i inside => ?_
  simp [hiByte, halfOf_getLsbD, inside]

theorem loByte_halfOf (h l : Byte) : loByte (halfOf h l) = l := by
  refine BitVec.eq_of_getLsbD_eq fun i inside => ?_
  simp [loByte, halfOf_getLsbD, inside]

/-- A two-byte field is exactly its two bytes. -/
theorem halfOf_eq_iff {h l : Byte} {w : Half} : halfOf h l = w ↔ h = hiByte w ∧ l = loByte w := by
  constructor
  · rintro rfl
    exact ⟨(hiByte_halfOf h l).symm, (loByte_halfOf h l).symm⟩
  · rintro ⟨rfl, rfl⟩
    exact halfOf_bytes w

/-! ### Codes -/

theorem intervalOf_eq_some {b : Byte} {i : Interval} : intervalOf b = some i ↔ b = intervalCode i := by
  revert b
  cases i <;> decide

theorem lockStateFrom_eq_some {b : Byte} {st : LockState} : lockStateFrom b = some st ↔ b = lockStateCode st := by
  revert b
  cases st <;> decide

theorem declineOf_eq_some {b : Byte} {r : DeclineReason} : declineOf b = some r ↔ b = declineCode r := by
  revert b
  cases r <;> decide

theorem stopOf_eq_some {b : Byte} {r : StopReason} : stopOf b = some r ↔ b = stopCode r := by
  revert b
  cases r <;> decide

theorem rosterFrom_eq_some {v : BitVec 2} {st : RosterState} : rosterFrom v = some st ↔ v = rosterCode st := by
  revert v
  cases st <;> decide

/-- The flags of a CLAIM are exactly a byte whose bit 4 is 0. -/
theorem claimFlags_iff {b : Byte} {m : Mode} {c : ClaimClass} {form : Form} {t : TicketId} :
    (b.getLsbD 4 = false ∧ modeOf (b.getLsbD 7) = m ∧ classOf (b.getLsbD 6) = c ∧ formOf (b.getLsbD 5) = form ∧
      loNibble b = t) ↔
      b = claimFlags m c form t := by
  constructor
  · rintro ⟨clear, rfl, rfl, rfl, rfl⟩
    revert b
    decide
  · rintro rfl
    revert t
    cases m <;> cases c <;> cases form <;> decide

/-! ### Rosters -/

theorem byte_fields (b : Byte) :
    b.extractLsb' 6 2 ++ b.extractLsb' 4 2 ++ b.extractLsb' 2 2 ++ b.extractLsb' 0 2 = b := by
  revert b
  decide

theorem fourStates_eq_some {b : Byte} {l : List RosterState} :
    fourStates b = some l ↔ ∃ w x y z, l = [w, x, y, z] ∧ b = rosterByte w x y z := by
  constructor
  · intro h
    unfold fourStates at h
    split at h
    · next w x y z hw hx hy hz =>
      rw [rosterAt, rosterFrom_eq_some] at hw hx hy hz
      refine ⟨w, x, y, z, (Option.some.inj h).symm, ?_⟩
      rw [rosterByte, ← hw, ← hx, ← hy, ← hz]
      exact (byte_fields b).symm
    · cases h
  · rintro ⟨w, x, y, z, rfl, rfl⟩
    cases w <;> cases x <;> cases y <;> cases z <;> rfl

theorem rosterOfBytes_eq_some {b0 b1 b2 b3 : Byte} {r : Roster} :
    rosterOfBytes b0 b1 b2 b3 = some r ↔ [b0, b1, b2, b3] = rosterBytes r := by
  constructor
  · intro h
    unfold rosterOfBytes at h
    split at h
    · next l0 l1 l2 l3 h0 h1 h2 h3 =>
      obtain ⟨_, _, _, _, rfl, rfl⟩ := fourStates_eq_some.1 h0
      obtain ⟨_, _, _, _, rfl, rfl⟩ := fourStates_eq_some.1 h1
      obtain ⟨_, _, _, _, rfl, rfl⟩ := fourStates_eq_some.1 h2
      obtain ⟨_, _, _, _, rfl, rfl⟩ := fourStates_eq_some.1 h3
      rw [← Option.some.inj h]
      simp [rosterBytes]
    · cases h
  · intro h
    simp only [rosterBytes, List.cons.injEq, and_true] at h
    obtain ⟨rfl, rfl, rfl, rfl⟩ := h
    have four (w x y z : RosterState) : fourStates (rosterByte w x y z) = some [w, x, y, z] :=
      fourStates_eq_some.2 ⟨w, x, y, z, rfl, rfl⟩
    simp only [rosterOfBytes, four]
    refine congrArg some (Vector.ext fun i inside => ?_)
    interval_cases i <;> simp

end Sys2Proof.Machine
end

section
/-! Lock records, bodies and whole frames as bytes, and the settlement of O57. -/

namespace Sys2Proof.Machine

/-! ### Lock records -/

theorem bits8_getLsbD (b7 b6 b5 b4 b3 b2 b1 b0 : Bool) {i : Nat} (inside : i < 8) :
    (bits8 b7 b6 b5 b4 b3 b2 b1 b0).getLsbD i = [b0, b1, b2, b3, b4, b5, b6, b7][i] := by
  have bits : ∀ i : Fin 8, (bits8 b7 b6 b5 b4 b3 b2 b1 b0).getLsbD i.val = [b0, b1, b2, b3, b4, b5, b6, b7][i.val] := by
    revert b7 b6 b5 b4 b3 b2 b1 b0
    decide
  exact bits ⟨i, inside⟩

theorem holderBits_getLsbD (v : IdSet) {i : Nat} (inside : i < 16) : (holderBits v).getLsbD i = v[i] := by
  have halves : holderBits v = halfOf (bits8 v[15] v[14] v[13] v[12] v[11] v[10] v[9] v[8])
      (bits8 v[7] v[6] v[5] v[4] v[3] v[2] v[1] v[0]) := rfl
  rw [halves, halfOf_getLsbD]
  by_cases low : i < 8
  · rw [if_pos low, bits8_getLsbD _ _ _ _ _ _ _ _ low]
    interval_cases i <;> rfl
  · rw [if_neg low, bits8_getLsbD _ _ _ _ _ _ _ _ (by omega)]
    interval_cases i <;> rfl

/-- The holder set of a two-byte field is exactly the set it stands for. -/
theorem holdersOf_eq_iff {h : Half} {v : IdSet} : holdersOf h = v ↔ h = holderBits v := by
  constructor
  · rintro rfl
    refine BitVec.eq_of_getLsbD_eq fun i inside => ?_
    rw [holderBits_getLsbD _ inside]
    simp [holdersOf, BitVec.getLsbD_eq_getElem inside]
  · rintro rfl
    refine Vector.ext fun i inside => ?_
    rw [← holderBits_getLsbD v inside]
    simp [holdersOf, BitVec.getLsbD_eq_getElem inside]

theorem entryByte_iff {b : Byte} {x : StationId} {m : Mode} {c : ClaimClass} :
    (b.extractLsb' 0 2 = 0#2 ∧ hiNibble b = x ∧ modeOf (b.getLsbD 3) = m ∧ classOf (b.getLsbD 2) = c) ↔
      b = (BitVec.ofFin x : BitVec 4) ++ BitVec.ofBool (modeBit m) ++ BitVec.ofBool (classBit c) ++ 0#2 := by
  constructor
  · rintro ⟨clear, rfl, rfl, rfl⟩
    revert b
    decide
  · rintro rfl
    revert x
    cases m <;> cases c <;> decide

theorem entriesOfBytes_entryBytes (q : List ClaimEntry) : entriesOfBytes (q.flatMap entryBytes) = some q := by
  induction q with
  | nil => rfl
  | cons e q ih =>
    obtain ⟨clear, station, mode, cls⟩ := entryByte_iff.2 (rfl : entryByte e = _)
    have ticket : smallOf (byteOf e.ticket.val) = some e.ticket := smallOf_eq_some.2 rfl
    have bytes : (e :: q).flatMap entryBytes = entryByte e :: byteOf e.ticket.val :: q.flatMap entryBytes := rfl
    rw [bytes, entriesOfBytes, ticket, ih]
    dsimp only
    rw [clear, station, mode, cls]
    rfl

theorem entriesOfBytes_eq_some {bytes : List Byte} {q : List ClaimEntry} :
    entriesOfBytes bytes = some q ↔ bytes = q.flatMap entryBytes := by
  refine ⟨fun h => ?_, fun h => h ▸ entriesOfBytes_entryBytes q⟩
  induction bytes using entriesOfBytes.induct generalizing q with
  | case1 =>
    cases h
    rfl
  | case2 => cases h
  | case3 a b rest t q' entries ticket clear ih =>
    rw [entriesOfBytes, ticket, entries] at h
    obtain rfl := Option.some.inj ((if_pos clear).symm.trans h)
    have first : a = entryByte
        { station := hiNibble a, mode := modeOf (a.getLsbD 3), cls := classOf (a.getLsbD 2), ticket := t } :=
      entryByte_iff.1 ⟨by simpa using clear, rfl, rfl, rfl⟩
    rw [List.flatMap_cons, ← ih entries, entryBytes, ← first, ← smallOf_eq_some.1 ticket]
    rfl
  | case4 a b rest t q' entries ticket clear ih =>
    rw [entriesOfBytes, ticket, entries] at h
    exact absurd ((if_neg clear).symm.trans h) (by simp)
  | case5 a b rest none ih =>
    rw [entriesOfBytes] at h
    split at h
    · exact (none _ _ ‹_› ‹_›).elim
    · cases h

/-! ### Bodies -/

/-- What the layout can carry of a body: the lengths it counts in a byte. -/
def Fits : Body → Prop
  | .copyLock _ r => r.queue.length ≤ 15
  | .note _ _ payload => payload.length ≤ 16
  | .admission _ n => n ≤ 64
  | _ => True

/-- A body is read back from its kind code and its bytes. -/
theorem bodyOf_bodyBytes {b : Body} (fits : Fits b) : bodyOf (kindCode b) (bodyBytes b) = some b := by
  have small (x : Fin 16) : smallOf (byteOf x.val) = some x := smallOf_eq_some.2 rfl
  have lock (k : LockId) : lockOf (byteOf k.val) = some k := lockOf_eq_some.2 rfl
  have interval (i : Interval) : intervalOf (intervalCode i) = some i := intervalOf_eq_some.2 rfl
  cases b with
  | claim k m c form t =>
    obtain ⟨clear, mode, cls, isForm, ticket⟩ := claimFlags_iff.2 (rfl : claimFlags m c form t = _)
    show ((lockOf (byteOf k.val)).bind fun k => _) = _
    rw [lock, Option.bind_some, clear, mode, cls, isForm, ticket]
    rfl
  | yield k t =>
    show ((lockOf (byteOf k.val)).bind fun k => (smallOf (byteOf t.val)).map fun t => _) = _
    rw [lock, small]
    rfl
  | expire k =>
    show (lockOf (byteOf k.val)).map Body.expire = _
    rw [lock]
    rfl
  | entry i =>
    show (intervalOf (intervalCode i)).map Body.entry = _
    rw [interval]
    rfl
  | leave => rfl
  | evict x =>
    show (smallOf (byteOf x.val)).map Body.evict = _
    rw [small]
    rfl
  | beacon i =>
    show (intervalOf (intervalCode i)).map Body.beacon = _
    rw [interval]
    rfl
  | decline j r =>
    show ((smallOf (byteOf j.val)).bind fun j => (declineOf (declineCode r)).map fun r => Body.decline j r) = _
    rw [small, declineOf_eq_some.2 rfl]
    rfl
  | copyRoster j c =>
    show copyRosterOf (byteOf j.val) _ _ _ _ (intervalCode c.interval) (hiByte c.cut) (loByte c.cut) = _
    rw [copyRosterOf, small, rosterOfBytes_eq_some.2 rfl, interval, halfOf_bytes]
  | copyLock k r =>
    show copyLockOf (byteOf k.val) (lockStateCode r.state) (hiByte (holderBits r.holders)) (loByte (holderBits r.holders))
      r.generation (byteOf r.queue.length) (r.queue.flatMap entryBytes) = _
    have length : (byteOf r.queue.length).toNat = r.queue.length := byteOf_toNat (by simp only [Fits] at fits; omega)
    rw [copyLockOf, lock, lockStateFrom_eq_some.2 rfl, entriesOfBytes_entryBytes, length, halfOf_bytes,
      holdersOf_eq_iff.2 rfl]
    exact if_pos ⟨fits, rfl⟩
  | note d topic payload =>
    show noteOf (byteOf d.val) (byteOf topic.val) (byteOf payload.length) payload = _
    have length : (byteOf payload.length).toNat = payload.length := byteOf_toNat (by simp only [Fits] at fits; omega)
    rw [noteOf, small, small, length]
    exact if_pos ⟨fits, rfl⟩
  | stop r =>
    show (stopOf (stopCode r)).map Body.stop = _
    rw [stopOf_eq_some.2 rfl]
    rfl
  | admission j n =>
    show ((smallOf (byteOf j.val)).bind fun j =>
      if (byteOf n).toNat ≤ 64 then some (Body.admission j (byteOf n).toNat) else none) = _
    rw [small, byteOf_toNat (by simp only [Fits] at fits; omega)]
    exact if_pos fits
  -- RECALL, whose constructor's name Mathlib keeps for a command of its own.
  | _ k target t =>
    show ((lockOf (byteOf k.val)).map fun k => Body.recall k (hiNibble (nibbles target t)) (loNibble (nibbles target t))) = _
    rw [lock, hiNibble_nibbles, loNibble_nibbles]
    rfl

theorem absurd_of_none {P : Prop} {b : Body} (h : none = some b) : P := nomatch h

/-- The bytes of a body of this kind encode it. -/
abbrev Encodes (kind : Byte) (bytes : List Byte) (b : Body) : Prop := Fits b ∧ kind = kindCode b ∧ bytes = bodyBytes b

section Inverse

variable {bytes : List Byte} {b : Body}

theorem encodes_claim (h : bodyOf 0x01 bytes = some b) : Encodes 0x01 bytes b := by
  rcases bytes with _ | ⟨k, _ | ⟨flags, _ | ⟨x, rest⟩⟩⟩
  any_goals exact absurd_of_none h
  have h : ((lockOf k).bind fun k =>
      if flags.getLsbD 4 then none
      else some (.claim k (modeOf (flags.getLsbD 7)) (classOf (flags.getLsbD 6)) (formOf (flags.getLsbD 5)) (loNibble flags))) =
      some b := h
  obtain ⟨lock, isLock, h⟩ := Option.bind_eq_some_iff.1 h
  split at h
  · cases h
  · next clear =>
    cases h
    refine ⟨trivial, rfl, ?_⟩
    rw [lockOf_eq_some.1 isLock, bodyBytes, ← claimFlags_iff.1 ⟨by simpa using clear, rfl, rfl, rfl, rfl⟩]

theorem encodes_yield (h : bodyOf 0x02 bytes = some b) : Encodes 0x02 bytes b := by
  rcases bytes with _ | ⟨k, _ | ⟨t, _ | ⟨x, rest⟩⟩⟩
  any_goals exact absurd_of_none h
  have h : ((lockOf k).bind fun k => (smallOf t).map fun t => Body.yield k t) = some b := h
  obtain ⟨lock, isLock, h⟩ := Option.bind_eq_some_iff.1 h
  obtain ⟨ticket, isTicket, rfl⟩ := Option.map_eq_some_iff.1 h
  refine ⟨trivial, rfl, ?_⟩
  rw [lockOf_eq_some.1 isLock, smallOf_eq_some.1 isTicket, bodyBytes]

theorem encodes_recall (h : bodyOf 0x03 bytes = some b) : Encodes 0x03 bytes b := by
  rcases bytes with _ | ⟨k, _ | ⟨t, _ | ⟨x, rest⟩⟩⟩
  any_goals exact absurd_of_none h
  have h : ((lockOf k).map fun k => Body.recall k (hiNibble t) (loNibble t)) = some b := h
  obtain ⟨lock, isLock, rfl⟩ := Option.map_eq_some_iff.1 h
  refine ⟨trivial, rfl, ?_⟩
  rw [lockOf_eq_some.1 isLock, bodyBytes, nibbles_of]

theorem encodes_expire (h : bodyOf 0x04 bytes = some b) : Encodes 0x04 bytes b := by
  rcases bytes with _ | ⟨k, _ | ⟨x, rest⟩⟩
  any_goals exact absurd_of_none h
  have h : (lockOf k).map Body.expire = some b := h
  obtain ⟨lock, isLock, rfl⟩ := Option.map_eq_some_iff.1 h
  exact ⟨trivial, rfl, by rw [lockOf_eq_some.1 isLock, bodyBytes]⟩

theorem encodes_entry (h : bodyOf 0x05 bytes = some b) : Encodes 0x05 bytes b := by
  rcases bytes with _ | ⟨i, _ | ⟨x, rest⟩⟩
  any_goals exact absurd_of_none h
  have h : (intervalOf i).map Body.entry = some b := h
  obtain ⟨interval, isInterval, rfl⟩ := Option.map_eq_some_iff.1 h
  exact ⟨trivial, rfl, by rw [intervalOf_eq_some.1 isInterval, bodyBytes]⟩

theorem encodes_leave (h : bodyOf 0x06 bytes = some b) : Encodes 0x06 bytes b := by
  rcases bytes with _ | ⟨x, rest⟩
  · obtain rfl := Option.some.inj (show some Body.leave = some b from h)
    exact ⟨trivial, rfl, rfl⟩
  · exact absurd_of_none h

theorem encodes_evict (h : bodyOf 0x07 bytes = some b) : Encodes 0x07 bytes b := by
  rcases bytes with _ | ⟨i, _ | ⟨x, rest⟩⟩
  any_goals exact absurd_of_none h
  have h : (smallOf i).map Body.evict = some b := h
  obtain ⟨station, isStation, rfl⟩ := Option.map_eq_some_iff.1 h
  exact ⟨trivial, rfl, by rw [smallOf_eq_some.1 isStation, bodyBytes]⟩

theorem encodes_beacon (h : bodyOf 0x08 bytes = some b) : Encodes 0x08 bytes b := by
  rcases bytes with _ | ⟨i, _ | ⟨x, rest⟩⟩
  any_goals exact absurd_of_none h
  have h : (intervalOf i).map Body.beacon = some b := h
  obtain ⟨interval, isInterval, rfl⟩ := Option.map_eq_some_iff.1 h
  exact ⟨trivial, rfl, by rw [intervalOf_eq_some.1 isInterval, bodyBytes]⟩

theorem encodes_decline (h : bodyOf 0x09 bytes = some b) : Encodes 0x09 bytes b := by
  rcases bytes with _ | ⟨j, _ | ⟨r, _ | ⟨x, rest⟩⟩⟩
  any_goals exact absurd_of_none h
  have h : ((smallOf j).bind fun j => (declineOf r).map fun r => Body.decline j r) = some b := h
  obtain ⟨joiner, isJoiner, h⟩ := Option.bind_eq_some_iff.1 h
  obtain ⟨reason, isReason, rfl⟩ := Option.map_eq_some_iff.1 h
  refine ⟨trivial, rfl, ?_⟩
  rw [smallOf_eq_some.1 isJoiner, declineOf_eq_some.1 isReason, bodyBytes]

theorem encodes_copyRoster (h : bodyOf 0x0A bytes = some b) : Encodes 0x0A bytes b := by
  rcases bytes with _ | ⟨j, _ | ⟨r0, _ | ⟨r1, _ | ⟨r2, _ | ⟨r3, _ | ⟨i, _ | ⟨c1, _ | ⟨c0, _ | ⟨x, rest⟩⟩⟩⟩⟩⟩⟩⟩⟩
  any_goals exact absurd_of_none h
  have h : copyRosterOf j r0 r1 r2 r3 i c1 c0 = some b := h
  unfold copyRosterOf at h
  split at h
  · next joiner roster interval isJoiner isRoster isInterval =>
    cases h
    refine ⟨trivial, rfl, ?_⟩
    rw [smallOf_eq_some.1 isJoiner, intervalOf_eq_some.1 isInterval, bodyBytes, hiByte_halfOf, loByte_halfOf,
      ← rosterOfBytes_eq_some.1 isRoster]
    rfl
  · cases h

theorem encodes_copyLock (h : bodyOf 0x0B bytes = some b) : Encodes 0x0B bytes b := by
  rcases bytes with _ | ⟨k, _ | ⟨st, _ | ⟨h1, _ | ⟨h0, _ | ⟨g, _ | ⟨n, rest⟩⟩⟩⟩⟩⟩
  any_goals exact absurd_of_none h
  have h : copyLockOf k st h1 h0 g n rest = some b := h
  unfold copyLockOf at h
  split at h
  · next lock state queue isLock isState isQueue =>
    split at h
    · next lengths =>
      obtain ⟨short, length⟩ := lengths
      cases h
      refine ⟨length.le.trans short, rfl, ?_⟩
      have holders : halfOf h1 h0 = holderBits (holdersOf (halfOf h1 h0)) := holdersOf_eq_iff.1 rfl
      have count : n = byteOf queue.length := (eq_byteOf_iff (by omega)).2 length.symm
      rw [lockOf_eq_some.1 isLock, lockStateFrom_eq_some.1 isState, entriesOfBytes_eq_some.1 isQueue, bodyBytes, ← holders,
        hiByte_halfOf, loByte_halfOf, ← count]
      rfl
    · cases h
  · cases h

theorem encodes_note (h : bodyOf 0x0C bytes = some b) : Encodes 0x0C bytes b := by
  rcases bytes with _ | ⟨d, _ | ⟨topic, _ | ⟨n, payload⟩⟩⟩
  any_goals exact absurd_of_none h
  have h : noteOf d topic n payload = some b := h
  unfold noteOf at h
  split at h
  · next dest isTopic isDest isTopic' =>
    split at h
    · next lengths =>
      obtain ⟨short, length⟩ := lengths
      cases h
      refine ⟨length.le.trans short, rfl, ?_⟩
      have count : n = byteOf payload.length := (eq_byteOf_iff (by omega)).2 length.symm
      rw [smallOf_eq_some.1 isDest, smallOf_eq_some.1 isTopic', bodyBytes, ← count]
      rfl
    · cases h
  · cases h

theorem encodes_stop (h : bodyOf 0x0D bytes = some b) : Encodes 0x0D bytes b := by
  rcases bytes with _ | ⟨r, _ | ⟨x, rest⟩⟩
  any_goals exact absurd_of_none h
  have h : (stopOf r).map Body.stop = some b := h
  obtain ⟨reason, isReason, rfl⟩ := Option.map_eq_some_iff.1 h
  exact ⟨trivial, rfl, by rw [stopOf_eq_some.1 isReason, bodyBytes]⟩

theorem encodes_admission (h : bodyOf 0x0E bytes = some b) : Encodes 0x0E bytes b := by
  rcases bytes with _ | ⟨j, _ | ⟨n, _ | ⟨x, rest⟩⟩⟩
  any_goals exact absurd_of_none h
  have h : ((smallOf j).bind fun j => if n.toNat ≤ 64 then some (Body.admission j n.toNat) else none) = some b := h
  obtain ⟨joiner, isJoiner, h⟩ := Option.bind_eq_some_iff.1 h
  split at h
  · next short =>
    cases h
    refine ⟨short, rfl, ?_⟩
    rw [smallOf_eq_some.1 isJoiner, bodyBytes, ← (eq_byteOf_iff (by omega)).2 (rfl : n.toNat = n.toNat)]
  · cases h

/-- A kind code outside the tables stands for no body. -/
theorem bodyOf_unknown {kind : Byte} (unknown : kind.toNat = 0 ∨ 15 ≤ kind.toNat) : bodyOf kind bytes = none := by
  delta bodyOf
  obtain zero | ⟨m, big⟩ := unknown.imp id fun big => (⟨kind.toNat - 15, by omega⟩ : ∃ m, kind.toNat = m + 15)
  · rw [zero]
    rfl
  · rw [big]
    rfl

end Inverse

/-- What the bytes of a body stand for is encoded as these bytes again: no bit of them is ignored. -/
theorem encodes_of_bodyOf {kind : Byte} {bytes : List Byte} {b : Body} (h : bodyOf kind bytes = some b) :
    Encodes kind bytes b := by
  by_cases known : 1 ≤ kind.toNat ∧ kind.toNat ≤ 14
  · obtain ⟨low, high⟩ := known
    obtain ⟨n, code⟩ : ∃ n, kind.toNat = n := ⟨_, rfl⟩
    obtain rfl : kind = byteOf n := (eq_byteOf_iff (by omega)).2 code
    rw [code] at low high
    interval_cases n
    · exact encodes_claim h
    · exact encodes_yield h
    · exact encodes_recall h
    · exact encodes_expire h
    · exact encodes_entry h
    · exact encodes_leave h
    · exact encodes_evict h
    · exact encodes_beacon h
    · exact encodes_decline h
    · exact encodes_copyRoster h
    · exact encodes_copyLock h
    · exact encodes_note h
    · exact encodes_stop h
    · exact encodes_admission h
  · rw [bodyOf_unknown (by omega)] at h
    cases h

/-! ### Whole frames -/

theorem fits_of_checks {f : Frame} (checks : frameChecks f = true) : Fits f.body := by
  cases body : f.body with
  | copyLock k r =>
    simp only [frameChecks, body, Bool.and_eq_true, decide_eq_true_eq] at checks
    exact checks.2
  | note d tp p =>
    simp only [frameChecks, body, Bool.and_eq_true, decide_eq_true_eq] at checks
    exact checks.2
  | admission j n => simpa [frameChecks, body, Fits] using checks
  | _ => trivial

/-- The frame of these header bytes and this body. -/
def frameWith (b0 b1 b3 b4 : Byte) (body : Body) : Frame :=
  { tag := { founder := hiNibble b0, count := b1 }, sender := loNibble b0, sequence := halfOf b3 b4, body := body }

/-- A run of header, body and two last bytes is a frame where the check word closes, the body decodes and the checks pass. -/
theorem frameOf_eq_some {b0 b1 b2 b3 b4 h l : Byte} {bodyPart : List Byte} {f : Frame} :
    frameOf (b0 :: b1 :: b2 :: b3 :: b4 :: (bodyPart ++ [h, l])) = some f ↔
      checkWord (b0 :: b1 :: b2 :: b3 :: b4 :: bodyPart) = halfOf h l ∧
        ∃ body, bodyOf b2 bodyPart = some body ∧ frameChecks f = true ∧ f = frameWith b0 b1 b3 b4 body := by
  have closes := checkWord_closes (b0 :: b1 :: b2 :: b3 :: b4 :: bodyPart) h l
  have part : (bodyPart ++ [h, l]).take ((bodyPart ++ [h, l]).length - 2) = bodyPart := by simp
  have long : ¬(bodyPart ++ [h, l]).length < 2 := by simp
  rw [← closes]
  simp only [frameOf, part, long, false_or, List.cons_append]
  by_cases zero : checkWord (b0 :: b1 :: b2 :: b3 :: b4 :: (bodyPart ++ [h, l])) = 0
  · rw [if_neg (not_not.2 zero)]
    cases decoded : bodyOf b2 bodyPart with
    | none => simp
    | some body =>
      dsimp only
      constructor
      · intro isFrame
        split at isFrame
        · next checks =>
          obtain rfl := Option.some.inj isFrame
          exact ⟨zero, body, rfl, checks, rfl⟩
        · cases isFrame
      · rintro ⟨-, body', same, checks, rfl⟩
        obtain rfl := Option.some.inj same
        exact if_pos checks
  · rw [if_pos zero]
    exact ⟨fun none => (by cases none), fun ⟨closed, _⟩ => absurd closed zero⟩

/-- A run of bytes that stands for a frame has a header and two last bytes. -/
theorem frameOf_shape {bytes : List Byte} {f : Frame} (isFrame : frameOf bytes = some f) :
    ∃ b0 b1 b2 b3 b4 part h l, bytes = b0 :: b1 :: b2 :: b3 :: b4 :: (part ++ [h, l]) := by
  unfold frameOf at isFrame
  split at isFrame
  · next b0 b1 b2 b3 b4 rest =>
    have long : 2 ≤ rest.length := by
      by_contra short
      rw [if_pos (.inl (by omega))] at isFrame
      cases isFrame
    obtain ⟨h, l, last⟩ : ∃ h l, rest.drop (rest.length - 2) = [h, l] :=
      List.length_eq_two.1 (by rw [List.length_drop]; omega)
    refine ⟨b0, b1, b2, b3, b4, rest.take (rest.length - 2), h, l, ?_⟩
    rw [← last, List.take_append_drop]
  · cases isFrame

/-- Settles O57. -/
theorem framesAndTheirBytesAgree : Obligations.FramesAndTheirBytesAgree := by
  intro bytes f
  constructor
  · intro isFrame
    obtain ⟨b0, b1, b2, b3, b4, part, h, l, rfl⟩ := frameOf_shape isFrame
    obtain ⟨word, body, decoded, checks, rfl⟩ := frameOf_eq_some.1 isFrame
    obtain ⟨-, rfl, rfl⟩ := encodes_of_bodyOf decoded
    have plain : plainBytes (frameWith b0 b1 b3 b4 body) = b0 :: b1 :: kindCode body :: b3 :: b4 :: bodyBytes body := by
      simp only [plainBytes, frameWith, nibbles_of, hiByte_halfOf, loByte_halfOf]
      rfl
    refine ⟨checks, ?_⟩
    rw [frameBytes, plain, word, hiByte_halfOf, loByte_halfOf]
    rfl
  · rintro ⟨checks, rfl⟩
    have shape : frameBytes f = nibbles f.tag.founder f.sender :: f.tag.count :: kindCode f.body :: hiByte f.sequence ::
        loByte f.sequence :: (bodyBytes f.body ++ [hiByte (checkWord (plainBytes f)), loByte (checkWord (plainBytes f))]) := rfl
    rw [shape, frameOf_eq_some]
    refine ⟨(halfOf_bytes _).symm, f.body, bodyOf_bodyBytes (fits_of_checks checks), checks, ?_⟩
    rw [frameWith, hiNibble_nibbles, loNibble_nibbles, halfOf_bytes]

end Sys2Proof.Machine
end
